-- ==== Sys2Proof/Word.lean ====
section
/-! DEFINITION. The word types of the ETF capture core (spec/00_scope.md R10, R12): every value is unsigned. -/

namespace Sys2Proof

/-- A register value, a FIFO word or a frame word (R10 `WORD_W` = 32). -/
abbrev Word32 := BitVec 32

/-- One byte of a frame (R12). -/
abbrev Byte := BitVec 8

/-- A routing tag (R10 `TAG_W` = 7). -/
abbrev Tag := BitVec 7

/-- A 2-bit field, such as the mode (R23). -/
abbrev Bits2 := BitVec 2

/-- The command word `CMD` (R10 `CMD_W` = 16). -/
abbrev CmdWord := BitVec 16

/-- An exact byte count (R89: 34 bits, so that four times a word count never wraps). -/
abbrev Nat34 := BitVec 34

end Sys2Proof
end

