-- ==== Sys2Proof/Config.lean ====
section
/-! DEFINITION. What an implementation fixes and the free values (spec/00_scope.md R10, spec/20_memory.md R66 to R76). -/

namespace Sys2Proof

/-- One free draw of the environment, made for one transaction (R66, R72, R73, R75, R76). -/
structure Draw where
  /-- the transport completes the transaction (R66) -/
  ok : Bool
  /-- the word the device would give to a read, before the laws R67 to R70 fix any bit of it (R75) -/
  value : Word32
  /-- for a write that fails: whether the register took the value all the same (R76) -/
  took : Bool
  deriving DecidableEq, Repr, Inhabited

/-- What a host does with a word that its buffer `B` has no room for: host policy (R204). -/
inductive FullChoice where
  /-- the host goes on at a line of its script, with these words in `B`, as many of them as `B` holds -/
  | goOn (b : List Word32) (line : Nat)
  /-- the host gives up: its script stops (R209) -/
  | stop
  deriving DecidableEq, Repr, Inhabited

/-- `SENTINEL` (R10): the Read-data word that means no data is available. -/
def Config.sentinel : Word32 := 0xFFFFFFFF

/-- `FRAME_WORDS` (R10): the words of one formatter frame. -/
def Config.frameWords : Nat := 4

/-- `MARGIN_BYTES` (R10): the extra room of the host's drain buffer (R204). -/
def Config.marginBytes : Nat := 128

/-- `ETF_BASE` is OPEN but for being a multiple of 4 (R10, R54): this is a quarter of it. Log entry 4. -/
opaque Config.etfBaseWords : Nat

/-- How much wider than needed the transport address is: `ADDR_W` is OPEN (R10). Log entry 5. -/
opaque Config.addrSlack : Nat

/-- `RSZ_WORDS`, the Size register's value, OPEN (R10, R67). Log entry 4. -/
opaque Config.rszWords : Word32

/-- `DRAIN_LIMIT_WORDS`, OPEN (R10). Log entry 4. -/
opaque Config.drainLimitWords : Nat

/-- The free draws of the transport and the device oracles: the draw made for the n-th transaction when no answer has
been planned (R66, R75). Nothing constrains it. Log entry 1. -/
opaque Config.freeDraw : Nat → Draw

/-- The host's free choice `EXT` (R201). Nothing constrains it. Log entry 8. -/
opaque Config.freeExt : Nat → Bool

/-- The host's policy when `B` is full (R204). Nothing constrains it. Log entry 19. -/
opaque Config.freeFull : Nat → FullChoice

end Sys2Proof
end

