-- ==== Sys2Proof/Syntax.lean ====
section
/-! DEFINITION. The commands of the block (spec/30_encoding.md R91, R92), the command word that carries one (R90), and
the lines of a host script (spec/44_block_and_sequencer.md R201). -/

namespace Sys2Proof

/-- The sixteen commands of the opcode map (R91), each with the fields of R92. -/
inductive Instr where
  | setMode (mm : Bits2)
  | enableCapture
  | disableCapture
  | readOne
  | isFull
  | isEmpty
  | isReady
  | isTriggered
  | fillLevel
  | fifoSize
  | requestStopOnFlush (b : Bool)
  | triggerManualFlush
  | demuxInit (t : Tag)
  | demuxFeed (w : Word32)
  | demuxStatus
  | getState
  deriving DecidableEq, Repr

/-- What the host writes on the command port: `CMD` and `DATA` (R32, R90). -/
structure Command where
  cmd : CmdWord
  data : Word32
  deriving DecidableEq, Repr

/-- The three units that execute commands (R91, column "unit"). -/
inductive ExecUnit where
  | controller
  | demultiplexer
  | block
  deriving DecidableEq, Repr

/-- The unit of a command (R91). -/
def Instr.execUnit : Instr → ExecUnit
  | .setMode _ => .controller
  | .enableCapture => .controller
  | .disableCapture => .controller
  | .readOne => .controller
  | .isFull => .controller
  | .isEmpty => .controller
  | .isReady => .controller
  | .isTriggered => .controller
  | .fillLevel => .controller
  | .fifoSize => .controller
  | .requestStopOnFlush _ => .controller
  | .triggerManualFlush => .controller
  | .demuxInit _ => .demultiplexer
  | .demuxFeed _ => .demultiplexer
  | .demuxStatus => .demultiplexer
  | .getState => .block

/-- The assembler's mnemonics (R91, R96). -/
inductive Mnemonic where
  | SET_MODE | ENABLE_CAPTURE | DISABLE_CAPTURE | READ_ONE | IS_FULL | IS_EMPTY | IS_READY | IS_TRIGGERED
  | FILL_LEVEL | FIFO_SIZE | REQUEST_STOP_ON_FLUSH | TRIGGER_MANUAL_FLUSH
  | DEMUX_INIT | DEMUX_FEED | DEMUX_STATUS | GET_STATE
  deriving DecidableEq, Repr

/-- The mode names of R96. -/
inductive ModeName where
  | circular | software | hardware
  deriving DecidableEq, Repr

/-- The operand forms of R96, after lexing: none, a mode name, `true` or `false`, or a number. -/
inductive AsmOperand where
  | absent
  | modeName (m : ModeName)
  | boolName (b : Bool)
  | number (n : Nat)
  deriving DecidableEq, Repr

/-- The pseudo-commands of R97. -/
inductive Pseudo where
  | arm (mm : Bits2)
  | stop
  | finish
  deriving DecidableEq, Repr

/-- The member commands of a pseudo-command, in the order they are issued (R97). -/
def Pseudo.expand : Pseudo → List Instr
  | .arm mm => [.setMode mm, .enableCapture]
  | .stop => [.requestStopOnFlush true, .triggerManualFlush]
  | .finish => [.disableCapture]

/-- A label of a host script (R201 `name`); names are numbered. -/
abbrev Label := Nat

/-- The conditions on `last` of R201. -/
inductive Cond where
  | isTrue | isFalse | isSome | isNone | isErr | ext
  deriving DecidableEq, Repr

/-- The lines of a host script (R201). `resetBlock` is the host's reset input (R250), which program P4 of
spec/95_test_vectors.md uses between two commands. A host may issue any command word, so `issue` holds raw words. -/
inductive Line where
  | issue (c : Command)
  | ifGoto (c : Cond) (name : Label)
  | goto (name : Label)
  | push
  | feedB
  | endScript
  | resetBlock
  deriving DecidableEq, Repr

/-- A line and the label that may stand before it (R201). -/
structure ScriptLine where
  label : Option Label
  body : Line
  deriving DecidableEq, Repr

end Sys2Proof
end

