-- ==== Sys2Proof/WellFormed.lean ====
section
/-! DEFINITION. Which terms of Syntax are well formed: the legal field values of spec/30_encoding.md R92 and R93, and
the host scripts of spec/44_block_and_sequencer.md R201 whose jumps name a label of the script. -/

namespace Sys2Proof

/-- Legal field values (R92, R93 case 3): only SET_MODE has an illegal one, `mm = 0b11`. -/
def Instr.wellFormed : Instr → Bool
  | .setMode mm => mm != 0b11#2
  | .enableCapture => true
  | .disableCapture => true
  | .readOne => true
  | .isFull => true
  | .isEmpty => true
  | .isReady => true
  | .isTriggered => true
  | .fillLevel => true
  | .fifoSize => true
  | .requestStopOnFlush _ => true
  | .triggerManualFlush => true
  | .demuxInit _ => true
  | .demuxFeed _ => true
  | .demuxStatus => true
  | .getState => true

/-- A line labelled `name` stands in the script (R201). -/
def hasLabel (script : List ScriptLine) (name : Label) : Bool :=
  script.any fun l => l.label == some name

/-- Every jump of the line has its target in the script (R201). -/
def Line.wellFormedIn (script : List ScriptLine) : Line → Bool
  | .ifGoto _ name => hasLabel script name
  | .goto name => hasLabel script name
  | .issue _ => true
  | .push => true
  | .feedB => true
  | .endScript => true
  | .resetBlock => true

/-- A host script whose jumps all have a target (R201). -/
def scriptWellFormed (script : List ScriptLine) : Bool :=
  script.all fun l => l.body.wellFormedIn script

end Sys2Proof
end

