-- ==== Sys2Proof/Decode.lean ====
section
/-! DEFINITION. Decoding a command word (spec/30_encoding.md R90 to R95), and after it the encoder, the assembler of
R96 and the opcode table's rows (R92) as data. -/

namespace Sys2Proof

/-- Why a command word is illegal (R93, its three cases). -/
inductive DecodeError where
  /-- case 1: `op` is unassigned -/
  | unassignedOp
  /-- case 2: a fixed bit of the pattern, a reserved argument bit, is not the value shown -/
  | reservedBits
  /-- case 3: SET_MODE with `mm = 0b11` -/
  | illegalMode
  deriving DecidableEq, Repr

/-- What decoding gives: a command, or the reason the word is illegal. -/
inductive Decoded where
  | legal (i : Instr)
  | illegal (e : DecodeError)
  deriving DecidableEq, Repr

/-- `op = CMD[15:8]` (R90). -/
def CmdWord.op (c : CmdWord) : BitVec 8 := c.extractLsb' 8 8

/-- `arg = CMD[7:0]` (R90). -/
def CmdWord.arg (c : CmdWord) : BitVec 8 := c.extractLsb' 0 8

/-- A command without fields: every argument bit is fixed at 0 (R92). -/
def decodePlain (arg : BitVec 8) (i : Instr) : Decoded :=
  if arg = 0 then .legal i else .illegal .reservedBits

/-- SET_MODE's argument: `arg[7:2]` fixed at 0, `arg[1:0]` the mode, `11` illegal (R92, R93). -/
def decodeSetMode (arg : BitVec 8) : Decoded :=
  if arg.extractLsb' 2 6 = 0 then
    if arg.extractLsb' 0 2 = 0b11#2 then .illegal .illegalMode else .legal (.setMode (arg.extractLsb' 0 2))
  else .illegal .reservedBits

/-- REQUEST_STOP_ON_FLUSH's argument: `arg[7:1]` fixed at 0, `arg[0]` is b (R92). -/
def decodeRequestStop (arg : BitVec 8) : Decoded :=
  if arg.extractLsb' 1 7 = 0 then .legal (.requestStopOnFlush (arg.getLsbD 0)) else .illegal .reservedBits

/-- DEMUX_INIT's argument: `arg[7]` fixed at 0, `arg[6:0]` the tag (R92). -/
def decodeDemuxInit (arg : BitVec 8) : Decoded :=
  if arg.getLsbD 7 = false then .legal (.demuxInit (arg.extractLsb' 0 7)) else .illegal .reservedBits

/-- A command is decoded from `op` alone, then its `arg` is checked (R91). DATA is read by DEMUX_FEED alone and never
makes a command illegal (R90, R93). -/
def decode (c : Command) : Decoded :=
  let op := c.cmd.op
  let arg := c.cmd.arg
  if op = 0x01 then decodeSetMode arg
  else if op = 0x02 then decodePlain arg .enableCapture
  else if op = 0x03 then decodePlain arg .disableCapture
  else if op = 0x04 then decodePlain arg .readOne
  else if op = 0x05 then decodePlain arg .isFull
  else if op = 0x06 then decodePlain arg .isEmpty
  else if op = 0x07 then decodePlain arg .isReady
  else if op = 0x08 then decodePlain arg .isTriggered
  else if op = 0x09 then decodePlain arg .fillLevel
  else if op = 0x0A then decodePlain arg .fifoSize
  else if op = 0x0B then decodeRequestStop arg
  else if op = 0x0C then decodePlain arg .triggerManualFlush
  else if op = 0x20 then decodeDemuxInit arg
  else if op = 0x21 then decodePlain arg (.demuxFeed c.data)
  else if op = 0x22 then decodePlain arg .demuxStatus
  else if op = 0x30 then decodePlain arg .getState
  else .illegal .unassignedOp

/-- The command words of a command (R91, R92). Commands that ignore DATA are encoded with DATA 0. -/
def encode : Instr → Command
  | .setMode mm => ⟨0x0100 ||| mm.setWidth 16, 0⟩
  | .enableCapture => ⟨0x0200, 0⟩
  | .disableCapture => ⟨0x0300, 0⟩
  | .readOne => ⟨0x0400, 0⟩
  | .isFull => ⟨0x0500, 0⟩
  | .isEmpty => ⟨0x0600, 0⟩
  | .isReady => ⟨0x0700, 0⟩
  | .isTriggered => ⟨0x0800, 0⟩
  | .fillLevel => ⟨0x0900, 0⟩
  | .fifoSize => ⟨0x0A00, 0⟩
  | .requestStopOnFlush b => ⟨if b then 0x0B01 else 0x0B00, 0⟩
  | .triggerManualFlush => ⟨0x0C00, 0⟩
  | .demuxInit t => ⟨0x2000 ||| t.setWidth 16, 0⟩
  | .demuxFeed w => ⟨0x2100, w⟩
  | .demuxStatus => ⟨0x2200, 0⟩
  | .getState => ⟨0x3000, 0⟩

/-- The command of a word numbered as spec/opcode_table.json numbers it: CMD in bits 15 to 0 and DATA in bits 47 to 16
(R90); bits the table gives no value are 0. CMD and DATA are values without a byte order (D38). -/
def tableCommand (nbits w : Nat) : Command :=
  ⟨BitVec.ofNat 16 (w % 2 ^ nbits), BitVec.ofNat 32 ((w % 2 ^ nbits) / 2 ^ 16)⟩

/-- The command of a decoding that gave one. -/
def Decoded.instr? : Decoded → Option Instr
  | .legal i => some i
  | .illegal _ => none

/-- What the decoder reads from a word of the opcode table. -/
def decodeTableWord (nbits w : Nat) : Option Instr :=
  (decode (tableCommand nbits w)).instr?

/-- One row of the opcode table (R92): the fixed bits of the pattern as mask and value. -/
structure OpRow where
  mnemonic : Mnemonic
  mask : CmdWord
  pattern : CmdWord
  deriving DecidableEq, Repr

/-- The patterns of R92, row by row. -/
def opRows : List OpRow :=
  [⟨.SET_MODE, 0xFFFC, 0x0100⟩, ⟨.ENABLE_CAPTURE, 0xFFFF, 0x0200⟩, ⟨.DISABLE_CAPTURE, 0xFFFF, 0x0300⟩,
   ⟨.READ_ONE, 0xFFFF, 0x0400⟩, ⟨.IS_FULL, 0xFFFF, 0x0500⟩, ⟨.IS_EMPTY, 0xFFFF, 0x0600⟩,
   ⟨.IS_READY, 0xFFFF, 0x0700⟩, ⟨.IS_TRIGGERED, 0xFFFF, 0x0800⟩, ⟨.FILL_LEVEL, 0xFFFF, 0x0900⟩,
   ⟨.FIFO_SIZE, 0xFFFF, 0x0A00⟩, ⟨.REQUEST_STOP_ON_FLUSH, 0xFFFE, 0x0B00⟩,
   ⟨.TRIGGER_MANUAL_FLUSH, 0xFFFF, 0x0C00⟩, ⟨.DEMUX_INIT, 0xFF80, 0x2000⟩, ⟨.DEMUX_FEED, 0xFFFF, 0x2100⟩,
   ⟨.DEMUX_STATUS, 0xFFFF, 0x2200⟩, ⟨.GET_STATE, 0xFFFF, 0x3000⟩]

/-- A command word meets a row's pattern (R92). -/
def OpRow.admits (r : OpRow) (c : CmdWord) : Bool := c &&& r.mask == r.pattern

/-- The mnemonic of a command (R91). -/
def Instr.mnemonic : Instr → Mnemonic
  | .setMode _ => .SET_MODE
  | .enableCapture => .ENABLE_CAPTURE
  | .disableCapture => .DISABLE_CAPTURE
  | .readOne => .READ_ONE
  | .isFull => .IS_FULL
  | .isEmpty => .IS_EMPTY
  | .isReady => .IS_READY
  | .isTriggered => .IS_TRIGGERED
  | .fillLevel => .FILL_LEVEL
  | .fifoSize => .FIFO_SIZE
  | .requestStopOnFlush _ => .REQUEST_STOP_ON_FLUSH
  | .triggerManualFlush => .TRIGGER_MANUAL_FLUSH
  | .demuxInit _ => .DEMUX_INIT
  | .demuxFeed _ => .DEMUX_FEED
  | .demuxStatus => .DEMUX_STATUS
  | .getState => .GET_STATE

/-- The mode bits of a mode name (R81, R96). -/
def ModeName.bits : ModeName → Bits2
  | .circular => 0b00
  | .software => 0b01
  | .hardware => 0b10

/-- A command that takes no operand. -/
def assemblePlain (i : Instr) : AsmOperand → Option Instr
  | .absent => some i
  | .modeName _ => none
  | .boolName _ => none
  | .number _ => none

/-- SET_MODE's operand: a mode name, or 0, 1, 2 (R96). -/
def assembleSetMode : AsmOperand → Option Instr
  | .modeName m => some (.setMode m.bits)
  | .number n => if n < 3 then some (.setMode (BitVec.ofNat 2 n)) else none
  | .absent => none
  | .boolName _ => none

/-- REQUEST_STOP_ON_FLUSH's operand: 1 or 0, or true or false (R96). -/
def assembleRequestStop : AsmOperand → Option Instr
  | .boolName b => some (.requestStopOnFlush b)
  | .number n => if n < 2 then some (.requestStopOnFlush (n == 1)) else none
  | .absent => none
  | .modeName _ => none

/-- DEMUX_INIT's operand: a tag in 0 to 127 (R96). -/
def assembleDemuxInit : AsmOperand → Option Instr
  | .number n => if n < 128 then some (.demuxInit (BitVec.ofNat 7 n)) else none
  | .absent => none
  | .modeName _ => none
  | .boolName _ => none

/-- DEMUX_FEED's operand: a 32-bit value (R96). -/
def assembleDemuxFeed : AsmOperand → Option Instr
  | .number n => if n < 2 ^ 32 then some (.demuxFeed (BitVec.ofNat 32 n)) else none
  | .absent => none
  | .modeName _ => none
  | .boolName _ => none

/-- The assembler of R96, from a mnemonic and its lexed operand. -/
def assemble : Mnemonic → AsmOperand → Option Instr
  | .SET_MODE, o => assembleSetMode o
  | .ENABLE_CAPTURE, o => assemblePlain .enableCapture o
  | .DISABLE_CAPTURE, o => assemblePlain .disableCapture o
  | .READ_ONE, o => assemblePlain .readOne o
  | .IS_FULL, o => assemblePlain .isFull o
  | .IS_EMPTY, o => assemblePlain .isEmpty o
  | .IS_READY, o => assemblePlain .isReady o
  | .IS_TRIGGERED, o => assemblePlain .isTriggered o
  | .FILL_LEVEL, o => assemblePlain .fillLevel o
  | .FIFO_SIZE, o => assemblePlain .fifoSize o
  | .REQUEST_STOP_ON_FLUSH, o => assembleRequestStop o
  | .TRIGGER_MANUAL_FLUSH, o => assemblePlain .triggerManualFlush o
  | .DEMUX_INIT, o => assembleDemuxInit o
  | .DEMUX_FEED, o => assembleDemuxFeed o
  | .DEMUX_STATUS, o => assemblePlain .demuxStatus o
  | .GET_STATE, o => assemblePlain .getState o

end Sys2Proof
end

