-- ==== Sys2Proof/Machine/State.lean ====
section
/-! DEFINITION. The state of the block and of the agents around it (spec/10_state.md, spec/00_scope.md R8), as plain
data, the reasons a step can stop, and the state after reset (R34). -/

namespace Sys2Proof.Machine

/-- The lifecycle phases (R21, R150). -/
inductive Phase where
  | disabled | armed | full | stopping | drained
  deriving DecidableEq, Repr

/-- The eight registers of the map (R35, R120), by their spec mnemonics. -/
inductive RegName where
  | SIZE | STS | RRD | CTL | MODE | LFILL | CFILL | FFCR
  deriving DecidableEq, Repr

/-- The direction of a transaction (R28). -/
inductive Dir where
  | R | W
  deriving DecidableEq, Repr

/-- The kinds of protocol violation (R223). -/
inductive ProtocolKind where
  | drainLimit | sofNotObserved | dataAfterDrained
  deriving DecidableEq, Repr

/-- The session fault (R28). A register name stands for its offset (R120: the name statically fixes the offset). -/
inductive SessionFault where
  | noFault
  | transport (reg : RegName) (dir : Dir)
  | protocol (kind : ProtocolKind)
  deriving DecidableEq, Repr

/-- The controller record `C` (R21 to R28). -/
structure Controller where
  phase : Phase
  modeSet : Bool
  cfgMode : Bits2
  sofReq : Bool
  readyLast : Bool
  drainedWords : Nat
  lifecycleOk : Bool
  fault : SessionFault
  deriving DecidableEq, Repr

/-- The demultiplexer record `X` (R29, R30). -/
structure Demux where
  tag : Tag
  fwords : List Word32
  deriving DecidableEq, Repr

/-- What GET_STATE reads out (R200): the phase by its code, the other elements as they are. -/
structure Snapshot where
  phase : Nat
  modeSet : Bool
  cfgMode : Bits2
  sofReq : Bool
  readyLast : Bool
  drainedWords : Nat
  lifecycleOk : Bool
  fault : SessionFault
  deriving DecidableEq, Repr

/-- The values a response carries (R33). -/
inductive RspValue where
  | unit
  | bool (b : Bool)
  | optWord (w : Option Word32)
  | bytes (n : Nat34)
  | pairs (l : List (Tag × Byte))
  | demuxStatus (tag : Tag) (held : Nat)
  | snapshot (s : Snapshot)
  deriving DecidableEq, Repr

/-- The error codes with their info (R220). -/
inductive CmdError where
  | illegalCommand (cmd : CmdWord)
  | transportError (reg : RegName) (dir : Dir)
  | protocolViolation (kind : ProtocolKind)
  | sessionAborted (fault : SessionFault)
  deriving DecidableEq, Repr

/-- A response `RSP` (R33). -/
inductive Response where
  | ok (v : RspValue)
  | err (e : CmdError)
  deriving DecidableEq, Repr

/-- The command port (R32): the command written and not yet executed, and the response. -/
structure Port where
  pending : Option Command
  rsp : Option Response
  deriving DecidableEq, Repr

/-- The implementation parameters of R10 that are OPEN; no step changes them. Log entry 4. -/
structure Params where
  etfBase : Nat
  addrW : Nat
  rszWords : Word32
  drainLimit : Nat
  deriving DecidableEq, Repr

/-- What the device laws R68 to R70 refer to: the last write of a register that took effect (R76), if there was one.
`lawful` says that the device obeys R67 to R70; a device that breaks them is what R160 detects. Log entries 2 and 3. -/
structure Device where
  lawful : Bool
  ctlW : Option Word32
  modeW : Option Word32
  ffcrW : Option Word32
  deriving DecidableEq, Repr

/-- The environment's free draws (R66): answers given in advance, and how many draws were made. Log entry 1. -/
structure Env where
  plan : List Draw
  count : Nat
  deriving DecidableEq, Repr

/-- One transaction that was issued (R61), with the phase it was issued in. A read carries the word it returned, or
none where the transport failed it; a write carries its word, whether the transport completed it, and whether it took
effect (R76). Log entry 10. -/
inductive BusEvent where
  | read (reg : RegName) (addr : Nat) (phase : Phase) (answer : Option Word32)
  | write (reg : RegName) (addr : Nat) (value : Word32) (ok : Bool) (took : Bool)
  deriving DecidableEq, Repr

/-- Whether a command of the host's own is in progress (R207), and for which kind of line. -/
inductive Await where
  | idle | command | feed
  deriving DecidableEq, Repr

/-- Where the run of a host script stands (R201): running, stopped by `END`, or stopped by an error. -/
inductive HostStatus where
  | running
  | ended
  | aborted (e : CmdError)
  deriving DecidableEq, Repr

/-- The host (R201, R204): its script, `last`, the buffer `B` and the list `P`, and the free choices: `EXT`, and what it
does when `B` is full (R204). -/
structure HostState where
  script : List ScriptLine
  pos : Nat
  last : Option Response
  status : HostStatus
  awaiting : Await
  feed : List Word32
  buf : List Word32
  pairs : List (Tag × Byte)
  extPlan : List Bool
  extCount : Nat
  fullPlan : List FullChoice
  fullCount : Nat
  deriving DecidableEq, Repr

/-- The whole machine: the block (`C`, `X`, the port and the reset input), its parameters, and the agents around it. -/
structure State where
  params : Params
  C : Controller
  X : Demux
  port : Port
  resetIn : Bool
  dev : Device
  env : Env
  bus : List BusEvent
  host : HostState
  deriving DecidableEq, Repr

/-- Why the machine stops. No command of the opcode table raises one: the errors of R220 are responses. -/
inductive Fault where
  /-- Raised by the host agent when a script line jumps to a label the script lacks (R201 gives no meaning). Safe. -/
  | undefinedLabel (name : Label)
  /-- Raised by the host agent when PUSH runs and `last` is not `Ok(Some(w))` (R201 gives no meaning). Safe. -/
  | pushWithoutWord
  deriving DecidableEq, Repr

/-- Why an instruction is refused. -/
inductive Refusal where
  /-- Raised by an arm of exec that has no meaning yet; no arm does. Safe. -/
  | notModelled (mnemonic : String)
  deriving DecidableEq, Repr

/-- `C` after reset (R34). -/
def Controller.reset : Controller where
  phase := .disabled
  modeSet := false
  cfgMode := 0b00
  sofReq := false
  readyLast := false
  drainedWords := 0
  lifecycleOk := true
  fault := .noFault

/-- `X` after reset (R34). -/
def Demux.reset : Demux where
  tag := 0
  fwords := []

/-- The parameters as the implementation fixes them: `ETF_BASE` a multiple of 4 (R54), every other value open. The
address width holds every address of the map. Log entries 4 and 5. -/
def Params.implemented : Params where
  etfBase := 4 * Config.etfBaseWords
  addrW := Nat.log2 (4 * Config.etfBaseWords + 0x308) + 1 + Config.addrSlack
  rszWords := Config.rszWords
  drainLimit := Config.drainLimitWords

/-- The device as it leaves power-up: no write has taken effect, so R69 and R70 fix nothing (R251), and R68 takes
capture to be disabled (R252). Log entries 2, 3 and 15. -/
def Device.powerUp : Device where
  lawful := true
  ctlW := none
  modeW := none
  ffcrW := none

/-- A host with no script loaded. Log entry 6. -/
def HostState.idle : HostState where
  script := []
  pos := 0
  last := none
  status := .running
  awaiting := .idle
  feed := []
  buf := []
  pairs := []
  extPlan := []
  extCount := 0
  fullPlan := []
  fullCount := 0

/-- The machine right after reset (R34, R250): the block waits for a command (R253). -/
def State.reset : State where
  params := Params.implemented
  C := Controller.reset
  X := Demux.reset
  port := { pending := none, rsp := none }
  resetIn := false
  dev := Device.powerUp
  env := { plan := [], count := 0 }
  bus := []
  host := HostState.idle

end Sys2Proof.Machine
end

