-- ==== Sys2Proof/Machine/Operands.lean ====
section
/-! DEFINITION. The register names with their offsets (spec/40_register_shim.md R120) and the register bit-field codec
(spec/30_encoding.md Part A) except the flag decoders, which are in Flags.lean. Pure functions (R80). -/

namespace Sys2Proof.Machine

/-- `off(name)` (R120, R35). -/
def RegName.off : RegName → Nat
  | .SIZE => 0x004
  | .STS => 0x00C
  | .RRD => 0x010
  | .CTL => 0x020
  | .MODE => 0x028
  | .LFILL => 0x02C
  | .CFILL => 0x030
  | .FFCR => 0x304

/-- The store value of SET_MODE (R82): bits [1:0] are the mode, bits [31:2] are v's. -/
def encodeMode (v : Word32) (m : Bits2) : Word32 := (v &&& 0xFFFFFFFC) ||| m.setWidth 32

/-- The store value of REQUEST_STOP_ON_FLUSH (R85): bit 12 is b, bit 6 is 0, every other bit is v's. -/
def encodeFFCRsof (v : Word32) (b : Bool) : Word32 := (v &&& 0xFFFFEFBF) ||| (if b then 0x00001000 else 0x00000000)

/-- The store value of TRIGGER_MANUAL_FLUSH (R86): bit 6 is 1, every other bit is v's. -/
def encodeFFCRflush (v : Word32) : Word32 := v ||| 0x00000040

/-- The store value of ENABLE_CAPTURE and DISABLE_CAPTURE (R87). -/
def encodeControl (en : Bool) : Word32 := if en then 0x00000001 else 0x00000000

/-- The word READ_ONE answers for a Read-data word (R88): none exactly for the sentinel. -/
def decodeRRD (v : Word32) : Option Word32 := if v = Config.sentinel then none else some v

/-- A word count as a byte count, exact in 34 bits (R89). -/
def wordsToBytes (n : Word32) : Nat34 := n.setWidth 34 <<< 2

/-- The numeric code of a phase (R21, R200). -/
def Phase.code : Phase → Nat
  | .disabled => 0
  | .armed => 1
  | .full => 2
  | .stopping => 3
  | .drained => 4

/-- The numeric code of a session fault (R28). -/
def SessionFault.code : SessionFault → Nat
  | .noFault => 0
  | .transport _ _ => 1
  | .protocol .drainLimit => 2
  | .protocol .sofNotObserved => 3
  | .protocol .dataAfterDrained => 4

/-- The numeric code of an error (R220). -/
def CmdError.code : CmdError → Nat
  | .illegalCommand _ => 1
  | .transportError _ _ => 2
  | .protocolViolation _ => 3
  | .sessionAborted _ => 4

/-- The numeric code of a response (R220): 0 for `Ok`. -/
def Response.code : Response → Nat
  | .ok _ => 0
  | .err e => e.code

/-- The record GET_STATE answers (R200). -/
def Controller.snapshot (c : Controller) : Snapshot where
  phase := c.phase.code
  modeSet := c.modeSet
  cfgMode := c.cfgMode
  sofReq := c.sofReq
  readyLast := c.readyLast
  drainedWords := c.drainedWords
  lifecycleOk := c.lifecycleOk
  fault := c.fault

end Sys2Proof.Machine
end

