-- ==== Sys2Proof/Machine/Flags.lean ====
section
/-! DEFINITION. The flags of the device's registers, decoded (spec/30_encoding.md R81, R83, R84; spec/10_state.md R36). -/

namespace Sys2Proof.Machine

/-- The result of `decodeMode` (R81). -/
inductive ModeVal where
  | circular | software | hardware | reserved3
  deriving DecidableEq, Repr

/-- The mode in bits [1:0] of a Mode register word (R81). -/
def decodeMode (v : Word32) : ModeVal :=
  if v.extractLsb' 0 2 = 0b00#2 then .circular
  else if v.extractLsb' 0 2 = 0b01#2 then .software
  else if v.extractLsb' 0 2 = 0b10#2 then .hardware
  else .reserved3

/-- The four Status flags (R83). -/
structure StatusFlags where
  full : Bool
  trigd : Bool
  ready : Bool
  empty : Bool
  deriving DecidableEq, Repr

/-- The Status flags of a Status word (R83): bit 3 and bits [31:5] are ignored. -/
def decodeStatus (v : Word32) : StatusFlags where
  full := v.getLsbD 0
  trigd := v.getLsbD 1
  ready := v.getLsbD 2
  empty := v.getLsbD 4

/-- The two Flush/Format Control flags (R84). -/
structure FlushFlags where
  manualFlush : Bool
  stopOnFlush : Bool
  deriving DecidableEq, Repr

/-- The flags of an FFCR word (R84): every other bit is ignored. -/
def decodeFFCR (v : Word32) : FlushFlags where
  manualFlush := v.getLsbD 6
  stopOnFlush := v.getLsbD 12

end Sys2Proof.Machine
end

