-- ==== Sys2Proof/Machine/Ops.lean ====
section
/-! DEFINITION. The named operations over the state: the free draws and the device laws (spec/20_memory.md), the two
transactions (spec/00_scope.md R13), the register access shim (spec/40_register_shim.md), taking a fault and leaving it
(spec/60_exceptions.md R225, R229; spec/70_reset_and_hazards.md R250), and the response (R33). -/

namespace Sys2Proof.Machine

/-- The draw for the next transaction: the planned answer, else the free draw of this transaction's number (R66). -/
def Env.next (e : Env) : Draw :=
  match e.plan with
  | d :: _ => d
  | [] => Config.freeDraw e.count

/-- The environment after a transaction. -/
def Env.advance (e : Env) : Env where
  plan := e.plan.tail
  count := e.count + 1

/-- Capture is enabled when the last write of Control that took effect had bit 0 = 1; before any write it is disabled
(R56, R68, R252). -/
def Device.captureEnabled (d : Device) : Bool :=
  match d.ctlW with
  | some v => v.getLsbD 0
  | none => false

/-- Law MODE (R69): bits [1:0] of a read are those last written, bits [31:2] are the draw's. -/
def lawMode (written : Option Word32) (raw : Word32) : Word32 :=
  match written with
  | some v => (raw &&& 0xFFFFFFFC) ||| (v &&& 0x00000003)
  | none => raw

/-- Law FFCR-SOF (R70, R71): bit 12 of a read is the one last written, every other bit is the draw's. -/
def lawFFCR (written : Option Word32) (raw : Word32) : Word32 :=
  match written with
  | some v => (raw &&& 0xFFFFEFFF) ||| (v &&& 0x00001000)
  | none => raw

/-- What a device that obeys the laws answers to a read whose draw is `raw` (R67 to R75). -/
def Device.lawfulAnswer (d : Device) (p : Params) (reg : RegName) (raw : Word32) : Word32 :=
  match reg with
  | .SIZE => p.rszWords
  | .CFILL => if d.captureEnabled then raw else 0
  | .MODE => lawMode d.modeW raw
  | .FFCR => lawFFCR d.ffcrW raw
  | .STS => raw
  | .RRD => raw
  | .CTL => raw
  | .LFILL => raw

/-- What the device answers to a read: the laws applied to the draw, or the bare draw of a device that breaks them. -/
def Device.answer (d : Device) (p : Params) (reg : RegName) (raw : Word32) : Word32 :=
  if d.lawful then d.lawfulAnswer p reg raw else raw

/-- The device after a write took effect (R56, R58, R59). -/
def Device.written (d : Device) (reg : RegName) (v : Word32) : Device :=
  match reg with
  | .CTL => { d with ctlW := some v }
  | .MODE => { d with modeW := some v }
  | .FFCR => { d with ffcrW := some v }
  | .SIZE => d
  | .STS => d
  | .RRD => d
  | .LFILL => d
  | .CFILL => d

/-- The address of a register on the transport: `ETF_BASE + off` (R13, R50). -/
def State.addrOf (s : State) (reg : RegName) : Nat := s.params.etfBase + reg.off

/-- The word a completed read of a register returns in this state. -/
def State.readValue (s : State) (reg : RegName) : Word32 := s.dev.answer s.params reg s.env.next.value

/-- `BusRead(off)` (R13): one read transaction, `none` where the transport fails it (R66). -/
def busRead (reg : RegName) (s : State) : Option Word32 × State :=
  let r := if s.env.next.ok then some (s.readValue reg) else none
  (r, { s with env := s.env.advance, bus := s.bus ++ [.read reg (s.addrOf reg) s.C.phase r] })

/-- `BusWrite(off, v)` (R13): one write transaction. A failed write took effect or not, as drawn (R76). -/
def busWrite (reg : RegName) (v : Word32) (s : State) : Bool × State :=
  let ok := s.env.next.ok
  let took := ok || s.env.next.took
  (ok, { s with
    env := s.env.advance
    dev := if took then s.dev.written reg v else s.dev
    bus := s.bus ++ [.write reg (s.addrOf reg) v ok took] })

/-- How a part of a command's body ends: with a value, or by raising an error that ends the command (R13 `raise`). -/
inductive Result (α : Type) where
  | done (v : α) (s : State)
  | raised (e : CmdError) (s : State)
  deriving DecidableEq, Repr

/-- Go on with a body after a part that did not raise (R13). -/
def Result.andThen {α β : Type} (r : Result α) (f : α → State → Result β) : Result β :=
  match r with
  | .done v s => f v s
  | .raised e s => .raised e s

/-- Trap entry (R225): latch the session fault in `C.fault` and end the command with its error. -/
def takeFault {α : Type} (f : SessionFault) (e : CmdError) (s : State) : Result α :=
  .raised e { s with C := { s.C with fault := f } }

/-- The way out of a latched fault (R229): the reset event (R250). It sets `C`, `X` and RSP to their reset values
(R34), issues no transaction and does not touch the device (R251). The reset input is consumed. Log entry 7. -/
def State.blockReset (s : State) : State :=
  { s with C := Controller.reset, X := Demux.reset, port := { s.port with rsp := none }, resetIn := false }

/-- `Load(name)` (R121): one read; a failed one raises TRANSPORT_ERROR (R222). -/
def load (reg : RegName) (s : State) : Result Word32 :=
  match busRead reg s with
  | (some v, t) => .done v t
  | (none, t) => takeFault (.transport reg .R) (.transportError reg .R) t

/-- `Store(name, v)` (R122): one write of the whole word; a failed one raises TRANSPORT_ERROR (R222). -/
def store (reg : RegName) (v : Word32) (s : State) : Result Unit :=
  match busWrite reg v s with
  | (true, t) => .done () t
  | (false, t) => takeFault (.transport reg .W) (.transportError reg .W) t

/-- `RMW(name, f)` (R123): the load and the store of one command, adjacent. -/
def rmw (reg : RegName) (f : Word32 → Word32) (s : State) : Result Unit :=
  (load reg s).andThen fun v t => store reg (f v) t

/-- The block responds (R33): RSP takes the response. -/
def State.respond (r : Response) (s : State) : State := { s with port := { s.port with rsp := some r } }

/-- The response of a finished body (R13): `Ok` of its value, or `Err` of what it raised. -/
def Result.respond (r : Result RspValue) : State :=
  match r with
  | .done v s => s.respond (.ok v)
  | .raised e s => s.respond (.err e)

/-- Execution of a controller command (R130) in the order of R227: illegality, the latched fault, then the body. -/
def runController (i : Instr) (body : State → Result RspValue) (s : State) : State :=
  if i.wellFormed = false then s.respond (.err (.illegalCommand (encode i).cmd))
  else if s.C.fault = .noFault then (body s).respond
  else s.respond (.err (.sessionAborted s.C.fault))

/-- Apply a lifecycle update to `C` (R130: after the command's transactions succeeded). -/
def State.updateC (f : Controller → Controller) (s : State) : State := { s with C := f s.C }

/-- The block takes the pending command from the port (R32); no response is pending until it responds. Log entry 9. -/
def State.acceptCommand (s : State) : State := { s with port := { pending := none, rsp := none } }

/-- ILLEGAL_COMMAND (R221): the response, and nothing else. -/
def State.rejectIllegal (c : CmdWord) (s : State) : State := s.respond (.err (.illegalCommand c))

end Sys2Proof.Machine
end

