-- ==== Sys2Proof/Machine/Block.lean ====
section
/-! DEFINITION. The block-level command GET_STATE (spec/44_block_and_sequencer.md R200). -/

namespace Sys2Proof.Machine

/-- GET_STATE (R200): the read-out of `C`, refused by no latched fault and writing nothing. -/
def execGetState (s : State) : Host.Outcome State Fault Refusal :=
  .next (s.respond (.ok (.snapshot s.C.snapshot)))

end Sys2Proof.Machine
end

