-- ==== Sys2Proof/Machine/Lifecycle.lean ====
section
/-! DEFINITION. The lifecycle procedures of the controller commands (spec/42_lifecycle_fsm.md R152 to R163). -/

namespace Sys2Proof.Machine

/-- `EnterDisabled()` (R162). -/
def enterDisabled (c : Controller) : Controller :=
  { c with phase := .disabled, modeSet := false, sofReq := false, readyLast := false, drainedWords := 0 }

/-- `EnterStopping()` (R163). -/
def enterStopping (c : Controller) : Controller :=
  { c with phase := .stopping, readyLast := false, drainedWords := 0 }

/-- `Lifecycle.QUERY()` (R158). -/
def lifecycleQuery (c : Controller) : Controller := { c with readyLast := false }

/-- `Lifecycle.SET_MODE(mm)` (R152). -/
def lifecycleSetMode (mm : Bits2) (c : Controller) : Controller :=
  if c.phase = .disabled then { c with cfgMode := mm, modeSet := true, readyLast := false }
  else { c with cfgMode := mm, lifecycleOk := false, readyLast := false }

/-- `Lifecycle.ENABLE_CAPTURE()` (R153). -/
def lifecycleEnable (c : Controller) : Controller :=
  if c.phase = .disabled then
    { c with phase := .armed, sofReq := false, drainedWords := 0, readyLast := false,
             lifecycleOk := c.lifecycleOk && c.modeSet }
  else { c with readyLast := false }

/-- `Lifecycle.DISABLE_CAPTURE()` (R154). -/
def lifecycleDisable (c : Controller) : Controller :=
  match c.phase with
  | .disabled => { c with readyLast := false }
  | .drained => enterDisabled c
  | .armed => enterDisabled { c with lifecycleOk := false }
  | .full => enterDisabled { c with lifecycleOk := false }
  | .stopping => enterDisabled { c with lifecycleOk := false }

/-- A word was returned in phase Stopping (R155): count it, and raise DRAIN_LIMIT above the limit (R166). -/
def countDrainedWord (s : State) : Result Unit :=
  let t := s.updateC fun c => { c with drainedWords := c.drainedWords + 1 }
  if t.params.drainLimit < t.C.drainedWords then
    takeFault (.protocol .drainLimit) (.protocolViolation .drainLimit) t
  else .done () t

/-- `Lifecycle.READ_ONE(r)` (R155). -/
def lifecycleReadOne (r : Option Word32) (s : State) : Result Unit :=
  let t := s.updateC lifecycleQuery
  match s.C.phase, r with
  | .stopping, none => .done () (if s.C.readyLast then t.updateC fun c => { c with phase := .drained } else t)
  | .stopping, some _ => countDrainedWord t
  | .drained, some _ => takeFault (.protocol .dataAfterDrained) (.protocolViolation .dataAfterDrained) t
  | .drained, none => .done () t
  | .disabled, _ => .done () t
  | .armed, _ => .done () t
  | .full, _ => .done () t

/-- `Lifecycle.IS_FULL(b)` (R156). -/
def lifecycleIsFull (b : Bool) (c : Controller) : Controller :=
  { c with phase := if c.phase = .armed ∧ b = true then .full else c.phase, readyLast := false }

/-- `Lifecycle.IS_READY(b)` (R157). -/
def lifecycleIsReady (b : Bool) (c : Controller) : Controller :=
  { c with readyLast := decide (c.phase = .stopping) && b }

/-- `Lifecycle.REQUEST_STOP_ON_FLUSH(b)` (R159). -/
def lifecycleRequestStop (b : Bool) (c : Controller) : Controller :=
  match c.phase with
  | .armed => { c with sofReq := b, readyLast := false }
  | .full => { c with sofReq := b, readyLast := false }
  | .stopping => { c with lifecycleOk := c.lifecycleOk && b, readyLast := false }
  | .disabled => { c with readyLast := false }
  | .drained => { c with readyLast := false }

/-- The phases in which the stop sequence is tracked (R160, R161): Armed and Full. -/
def Phase.capturing : Phase → Bool
  | .armed => true
  | .full => true
  | .disabled => false
  | .stopping => false
  | .drained => false

/-- `Lifecycle.TRIGGER_CHECK(v)` (R160): the request must be observed in the FFCR word v. -/
def lifecycleTriggerCheck (v : Word32) (s : State) : Result Unit :=
  if s.C.phase.capturing && s.C.sofReq && !(decodeFFCR v).stopOnFlush then
    takeFault (.protocol .sofNotObserved) (.protocolViolation .sofNotObserved) s
  else .done () s

/-- `Lifecycle.TRIGGER_MANUAL_FLUSH()` (R161). -/
def lifecycleTrigger (c : Controller) : Controller :=
  if c.phase.capturing then
    if c.sofReq then enterStopping c else { c with lifecycleOk := false, readyLast := false }
  else { c with readyLast := false }

end Sys2Proof.Machine
end

