-- ==== Sys2Proof/Machine/Controller.lean ====
section
/-! DEFINITION. The meanings of the twelve FIFO controller commands (spec/41_controller_ops.md R131 to R142). -/

namespace Sys2Proof.Machine

/-- SET_MODE mm (R131). -/
def setModeBody (mm : Bits2) (s : State) : Result RspValue :=
  (rmw .MODE (fun v => encodeMode v mm) s).andThen fun _ t => .done .unit (t.updateC (lifecycleSetMode mm))

/-- SET_MODE (R131) under the wrapper of R130. -/
def execSetMode (mm : Bits2) (s : State) : Host.Outcome State Fault Refusal :=
  .next (runController (.setMode mm) (setModeBody mm) s)

/-- ENABLE_CAPTURE (R132). -/
def enableCaptureBody (s : State) : Result RspValue :=
  (store .CTL (encodeControl true) s).andThen fun _ t => .done .unit (t.updateC lifecycleEnable)

/-- ENABLE_CAPTURE (R132) under the wrapper of R130. -/
def execEnableCapture (s : State) : Host.Outcome State Fault Refusal :=
  .next (runController .enableCapture enableCaptureBody s)

/-- DISABLE_CAPTURE (R133). -/
def disableCaptureBody (s : State) : Result RspValue :=
  (store .CTL (encodeControl false) s).andThen fun _ t => .done .unit (t.updateC lifecycleDisable)

/-- DISABLE_CAPTURE (R133) under the wrapper of R130. -/
def execDisableCapture (s : State) : Host.Outcome State Fault Refusal :=
  .next (runController .disableCapture disableCaptureBody s)

/-- READ_ONE (R134). -/
def readOneBody (s : State) : Result RspValue :=
  (load .RRD s).andThen fun w t =>
    (lifecycleReadOne (decodeRRD w) t).andThen fun _ u => .done (.optWord (decodeRRD w)) u

/-- READ_ONE (R134) under the wrapper of R130. -/
def execReadOne (s : State) : Host.Outcome State Fault Refusal :=
  .next (runController .readOne readOneBody s)

/-- IS_FULL (R135). -/
def isFullBody (s : State) : Result RspValue :=
  (load .STS s).andThen fun v t =>
    .done (.bool (decodeStatus v).full) (t.updateC (lifecycleIsFull (decodeStatus v).full))

/-- IS_FULL (R135) under the wrapper of R130. -/
def execIsFull (s : State) : Host.Outcome State Fault Refusal :=
  .next (runController .isFull isFullBody s)

/-- IS_EMPTY (R136). -/
def isEmptyBody (s : State) : Result RspValue :=
  (load .STS s).andThen fun v t => .done (.bool (decodeStatus v).empty) (t.updateC lifecycleQuery)

/-- IS_EMPTY (R136) under the wrapper of R130. -/
def execIsEmpty (s : State) : Host.Outcome State Fault Refusal :=
  .next (runController .isEmpty isEmptyBody s)

/-- IS_READY (R137). -/
def isReadyBody (s : State) : Result RspValue :=
  (load .STS s).andThen fun v t =>
    .done (.bool (decodeStatus v).ready) (t.updateC (lifecycleIsReady (decodeStatus v).ready))

/-- IS_READY (R137) under the wrapper of R130. -/
def execIsReady (s : State) : Host.Outcome State Fault Refusal :=
  .next (runController .isReady isReadyBody s)

/-- IS_TRIGGERED (R138). -/
def isTriggeredBody (s : State) : Result RspValue :=
  (load .STS s).andThen fun v t => .done (.bool (decodeStatus v).trigd) (t.updateC lifecycleQuery)

/-- IS_TRIGGERED (R138) under the wrapper of R130. -/
def execIsTriggered (s : State) : Host.Outcome State Fault Refusal :=
  .next (runController .isTriggered isTriggeredBody s)

/-- FILL_LEVEL (R139): the Current fill level, never the latched one. -/
def fillLevelBody (s : State) : Result RspValue :=
  (load .CFILL s).andThen fun n t => .done (.bytes (wordsToBytes n)) (t.updateC lifecycleQuery)

/-- FILL_LEVEL (R139) under the wrapper of R130. -/
def execFillLevel (s : State) : Host.Outcome State Fault Refusal :=
  .next (runController .fillLevel fillLevelBody s)

/-- FIFO_SIZE (R140): the Size register is read every time. -/
def fifoSizeBody (s : State) : Result RspValue :=
  (load .SIZE s).andThen fun n t => .done (.bytes (wordsToBytes n)) (t.updateC lifecycleQuery)

/-- FIFO_SIZE (R140) under the wrapper of R130. -/
def execFifoSize (s : State) : Host.Outcome State Fault Refusal :=
  .next (runController .fifoSize fifoSizeBody s)

/-- REQUEST_STOP_ON_FLUSH b (R141). -/
def requestStopOnFlushBody (b : Bool) (s : State) : Result RspValue :=
  (rmw .FFCR (fun v => encodeFFCRsof v b) s).andThen fun _ t => .done .unit (t.updateC (lifecycleRequestStop b))

/-- REQUEST_STOP_ON_FLUSH (R141) under the wrapper of R130. -/
def execRequestStopOnFlush (b : Bool) (s : State) : Host.Outcome State Fault Refusal :=
  .next (runController (.requestStopOnFlush b) (requestStopOnFlushBody b) s)

/-- TRIGGER_MANUAL_FLUSH (R142): load, check, store, lifecycle update. -/
def triggerManualFlushBody (s : State) : Result RspValue :=
  (load .FFCR s).andThen fun v t =>
    (lifecycleTriggerCheck v t).andThen fun _ u =>
      (store .FFCR (encodeFFCRflush v) u).andThen fun _ x => .done .unit (x.updateC lifecycleTrigger)

/-- TRIGGER_MANUAL_FLUSH (R142) under the wrapper of R130. -/
def execTriggerManualFlush (s : State) : Host.Outcome State Fault Refusal :=
  .next (runController .triggerManualFlush triggerManualFlushBody s)

end Sys2Proof.Machine
end

