-- ==== Sys2Proof/Machine/Demux.lean ====
section
/-! DEFINITION. The frame demultiplexer: the frame parse (spec/43_frame_demux.md R184 to R190) and the meanings of its
three commands (R181 to R183). The frame layout is the spec's, which it marks as general knowledge (log entry 17). -/

namespace Sys2Proof.Machine

/-- Byte j of a word, least significant first (R52, R184). -/
def wordByte (w : Word32) (j : Nat) : Byte := w.extractLsb' (8 * j) 8

/-- The sixteen bytes `b[0..15]` of a frame: `b[4k + j] = wk[8j+7 : 8j]` (R184). -/
def frameBytes (ws : List Word32) : List Byte :=
  ws.flatMap fun w => [wordByte w 0, wordByte w 1, wordByte w 2, wordByte w 3]

/-- The parse state of a frame: the pairs output so far and the active tag (R185). -/
structure ParseState where
  out : List (Tag × Byte)
  tag : Tag
  deriving DecidableEq, Repr

/-- The tag an ID byte selects: bits [7:1] (R186). -/
def idTag (b : Byte) : Tag := b.extractLsb' 1 7

/-- A data byte at an even position: bits [7:1] from the byte, bit 0 from its aux bit (R188). -/
def evenData (b : Byte) (f : Bool) : Byte := b.extractLsb' 1 7 ++ BitVec.ofBool f

/-- One even byte and its odd partner, with the aux bit of the even byte (R185, R187, R188, R189). -/
def parsePair (even odd : Byte) (f : Bool) (p : ParseState) : ParseState :=
  if even.getLsbD 0 then
    if f then { out := p.out ++ [(p.tag, odd)], tag := idTag even }
    else { out := p.out ++ [(idTag even, odd)], tag := idTag even }
  else { p with out := p.out ++ [(p.tag, evenData even f), (p.tag, odd)] }

/-- Byte 14, which has no odd partner (R190). -/
def parseLast (b14 : Byte) (f : Bool) (p : ParseState) : ParseState :=
  if b14.getLsbD 0 then { p with tag := idTag b14 } else { p with out := p.out ++ [(p.tag, evenData b14 f)] }

/-- `ParseFrame(t, [w0, w1, w2, w3])` (R185): the pairs at i = 0, 2, ..., 12, then byte 14; `b[15]` is the aux byte. -/
def parseFrame (t : Tag) (ws : List Word32) : ParseState :=
  let b := fun i => (frameBytes ws).getD i 0
  let aux := b 15
  let pairs := [0, 2, 4, 6, 8, 10, 12].foldl
    (fun p i => parsePair (b i) (b (i + 1)) (aux.getLsbD (i / 2)) p) { out := [], tag := t }
  parseLast (b 14) (aux.getLsbD 7) pairs

/-- The demultiplexer takes one word (R182): its new state and the pairs it outputs. -/
def feedWord (w : Word32) (x : Demux) : Demux × List (Tag × Byte) :=
  let ws := x.fwords ++ [w]
  if ws.length = Config.frameWords then
    let p := parseFrame x.tag ws
    ({ tag := p.tag, fwords := [] }, p.out)
  else ({ x with fwords := ws }, [])

/-- DEMUX_INIT t (R181). -/
def execDemuxInit (t : Tag) (s : State) : Host.Outcome State Fault Refusal :=
  .next (State.respond (.ok .unit) { s with X := { tag := t, fwords := [] } })

/-- DEMUX_FEED w (R182). -/
def execDemuxFeed (w : Word32) (s : State) : Host.Outcome State Fault Refusal :=
  .next (State.respond (.ok (.pairs (feedWord w s.X).2)) { s with X := (feedWord w s.X).1 })

/-- DEMUX_STATUS (R183). -/
def execDemuxStatus (s : State) : Host.Outcome State Fault Refusal :=
  .next (s.respond (.ok (.demuxStatus s.X.tag s.X.fwords.length)))

end Sys2Proof.Machine
end

