-- ==== Sys2Proof/Machine/Dispatch.lean ====
section
/-! DEFINITION. One arm per command of the opcode map (spec/30_encoding.md R91). -/

namespace Sys2Proof.Machine

def exec (i : Instr) (s : State) : Host.Outcome State Fault Refusal :=
  match i with
  | .setMode mm => Sys2Proof.Machine.execSetMode mm s
  | .enableCapture => Sys2Proof.Machine.execEnableCapture s
  | .disableCapture => Sys2Proof.Machine.execDisableCapture s
  | .readOne => Sys2Proof.Machine.execReadOne s
  | .isFull => Sys2Proof.Machine.execIsFull s
  | .isEmpty => Sys2Proof.Machine.execIsEmpty s
  | .isReady => Sys2Proof.Machine.execIsReady s
  | .isTriggered => Sys2Proof.Machine.execIsTriggered s
  | .fillLevel => Sys2Proof.Machine.execFillLevel s
  | .fifoSize => Sys2Proof.Machine.execFifoSize s
  | .requestStopOnFlush b => Sys2Proof.Machine.execRequestStopOnFlush b s
  | .triggerManualFlush => Sys2Proof.Machine.execTriggerManualFlush s
  | .demuxInit t => Sys2Proof.Machine.execDemuxInit t s
  | .demuxFeed w => Sys2Proof.Machine.execDemuxFeed w s
  | .demuxStatus => Sys2Proof.Machine.execDemuxStatus s
  | .getState => Sys2Proof.Machine.execGetState s

end Sys2Proof.Machine
end

