-- ==== Sys2Proof/Machine/HostAgent.lean ====
section
/-! DEFINITION. The host agent: one step of a host script (spec/44_block_and_sequencer.md R201), the pseudo-commands
as lines (spec/30_encoding.md R97), the Capture Sequencer's script (R203), the drain buffer's capacity (R204) and the tag
filter (R208). Host lines change only the host's own record, the port and the reset input. -/

namespace Sys2Proof.Machine

/-- The line a label names (R201): the first one that carries it. -/
def findLabel : List ScriptLine → Label → Option Nat
  | [], _ => none
  | l :: ls, name => if l.label = some name then some 0 else (findLabel ls name).map (· + 1)

/-- A condition on `last` (R201); `ext` is the host's free choice. -/
def condHolds (c : Cond) (last : Option Response) (ext : Bool) : Bool :=
  match c with
  | .isTrue => last == some (.ok (.bool true))
  | .isFalse => last == some (.ok (.bool false))
  | .isSome => match last with
    | some (.ok (.optWord (some _))) => true
    | _ => false
  | .isNone => last == some (.ok (.optWord none))
  | .isErr => match last with
    | some (.err _) => true
    | _ => false
  | .ext => ext

/-- The host's next free choice `EXT` (R201): planned, else free. -/
def HostState.nextExt (h : HostState) : Bool :=
  match h.extPlan with
  | b :: _ => b
  | [] => Config.freeExt h.extCount

/-- The host after it evaluated a condition: `EXT` uses up one free choice, the other conditions none. -/
def HostState.afterCond (h : HostState) (c : Cond) : HostState :=
  if c = .ext then { h with extPlan := h.extPlan.tail, extCount := h.extCount + 1 } else h

/-- Continue at the next line. -/
def HostState.nextLine (h : HostState) : HostState := { h with pos := h.pos + 1 }

/-- The host writes a command on the port (R32) and waits for its response (R207). -/
def State.issue (c : Command) (a : Await) (s : State) : State :=
  { s with port := { s.port with pending := some c }, host := { s.host with awaiting := a } }

/-- Continue at the line a label names (R201). -/
def State.jumpTo (name : Label) (s : State) : Host.Outcome State Fault Refusal :=
  match findLabel s.host.script name with
  | some p => .next { s with host := { s.host with pos := p } }
  | none => .fault (.undefinedLabel name)

/-- The capacity of `B` in words: `RSZ_WORDS + 32` (R204). -/
def Params.bufferWords (p : Params) : Nat := p.rszWords.toNat + Config.marginBytes / 4

/-- The host's next choice for a full `B` (R204): planned, else free. -/
def HostState.nextFull (h : HostState) : FullChoice :=
  match h.fullPlan with
  | c :: _ => c
  | [] => Config.freeFull h.fullCount

/-- The host after it made a choice for a full `B`. -/
def HostState.afterFull (h : HostState) : HostState :=
  { h with fullPlan := h.fullPlan.tail, fullCount := h.fullCount + 1 }

/-- `B` is at its capacity (R204). -/
def State.bufferFull (s : State) : Bool := decide (s.params.bufferWords ≤ s.host.buf.length)

/-- `PUSH` with `B` full (R204): host policy, which never takes `B` above its capacity. Log entry 19. -/
def State.pushFull (s : State) : State :=
  match s.host.nextFull with
  | .goOn b line => { s with host := { s.host.afterFull with buf := b.take s.params.bufferWords, pos := line } }
  | .stop => { s with host := { s.host.afterFull with status := .ended } }

/-- `PUSH` of a word (R201, R204): `B` takes it where it has room. -/
def State.pushWord (w : Word32) (s : State) : State :=
  if s.bufferFull then s.pushFull else { s with host := { s.host.nextLine with buf := s.host.buf ++ [w] } }

/-- `PUSH` (R201): append the word of `last = Ok(Some(w))` to `B`. -/
def State.pushLast (s : State) : Host.Outcome State Fault Refusal :=
  match s.host.last with
  | some (.ok (.optWord (some w))) => .next (s.pushWord w)
  | _ => .fault .pushWithoutWord

/-- `IF c GOTO name` (R201). -/
def State.branch (c : Cond) (name : Label) (s : State) : Host.Outcome State Fault Refusal :=
  if condHolds c s.host.last s.host.nextExt then State.jumpTo name { s with host := s.host.afterCond c }
  else .next { s with host := (s.host.afterCond c).nextLine }

/-- One line of the script (R201). -/
def runLine (l : Line) (s : State) : Host.Outcome State Fault Refusal :=
  match l with
  | .issue c => .next (s.issue c .command)
  | .ifGoto c name => s.branch c name
  | .goto name => s.jumpTo name
  | .push => s.pushLast
  | .feedB => .next { s with host := { s.host.nextLine with feed := s.host.buf } }
  | .endScript => .next { s with host := { s.host with status := .ended } }
  | .resetBlock => .next { s with resetIn := true, host := s.host.nextLine }

/-- Whether the line at a position is `IF ERR GOTO ...` (R201). -/
def handlesErr (script : List ScriptLine) (pos : Nat) : Bool :=
  match script[pos]? with
  | some ⟨_, .ifGoto .isErr _⟩ => true
  | _ => false

/-- The host after it read the response of a command line (R201): recorded as `last`; an error stops the script unless
the next line handles it. -/
def HostState.recordResponse (h : HostState) (r : Response) : HostState :=
  let h' := { h.nextLine with last := some r, awaiting := .idle }
  match r with
  | .ok _ => h'
  | .err e => if handlesErr h.script (h.pos + 1) then h' else { h' with status := .aborted e }

/-- The host after it read the response of a DEMUX_FEED of `FEED B` (R201): its pairs go to `P`. Log entry 8. -/
def HostState.recordFeed (h : HostState) (r : Response) : HostState :=
  match r with
  | .ok (.pairs l) => { h with pairs := h.pairs ++ l, awaiting := .idle }
  | .ok _ => { h with awaiting := .idle }
  | .err e => { h with awaiting := .idle, status := .aborted e }

/-- The host reads the response (R32). Log entry 9. -/
def State.takeResponse (h : HostState) (s : State) : State :=
  { s with port := { s.port with rsp := none }, host := h }

/-- The host moves with no command of its own in progress: `FEED B` goes on (R201), else the next line runs. A script
that has stopped, or has no line left, leaves the machine idle. -/
def runScript (s : State) : Host.Outcome State Fault Refusal :=
  match s.host.status, s.host.feed with
  | .running, w :: ws =>
    .next (State.issue (encode (.demuxFeed w)) .feed { s with host := { s.host with feed := ws } })
  | .running, [] =>
    match s.host.script[s.host.pos]? with
    | some l => runLine l.body s
    | none => .next s
  | .ended, _ => .next s
  | .aborted _, _ => .next s

/-- One step of the host (R8, R201): read the response it waits for, else move on. -/
def hostStep (s : State) : Host.Outcome State Fault Refusal :=
  match s.host.awaiting, s.port.rsp with
  | .command, some r => .next (s.takeResponse (s.host.recordResponse r))
  | .feed, some r => .next (s.takeResponse (s.host.recordFeed r))
  | .command, none => .next s
  | .feed, none => .next s
  | .idle, _ => runScript s

/-- A command as a script line. -/
def commandLine (label : Option Label) (i : Instr) : ScriptLine := ⟨label, .issue (encode i)⟩

/-- A pseudo-command as script lines, one for each member (R97, R201); the label names the first. -/
def pseudoLines (label : Option Label) (p : Pseudo) : List ScriptLine :=
  match p.expand with
  | [] => []
  | i :: is => commandLine label i :: is.map (commandLine none)

/-- The labels of the Sequencer's script (R203): wait, stop, drain, check, done. -/
def Label.wait : Label := 0
def Label.stop : Label := 1
def Label.drain : Label := 2
def Label.check : Label := 3
def Label.done : Label := 4

/-- The Capture Sequencer as a host script, with m the caller-chosen mode (R203). -/
def sequencerScript (m : Bits2) : List ScriptLine :=
  [commandLine none .disableCapture, commandLine none .fifoSize]
  ++ pseudoLines none (.arm m)
  ++ [commandLine (some Label.wait) .fillLevel, ⟨none, .ifGoto .ext Label.stop⟩,
      commandLine none .isFull, ⟨none, .ifGoto .isFalse Label.wait⟩]
  ++ pseudoLines (some Label.stop) .stop
  ++ [commandLine (some Label.drain) .readOne, ⟨none, .ifGoto .isNone Label.check⟩, ⟨none, .push⟩,
      ⟨none, .goto Label.drain⟩]
  ++ [commandLine (some Label.check) .isReady, ⟨none, .ifGoto .isFalse Label.drain⟩, commandLine none .readOne,
      ⟨none, .ifGoto .isNone Label.done⟩, ⟨none, .push⟩, ⟨none, .goto Label.drain⟩]
  ++ pseudoLines (some Label.done) .finish
  ++ [commandLine none (.demuxInit 0), ⟨none, .feedB⟩, ⟨none, .endScript⟩]

/-- The recommended drain limit, `RSZ_WORDS + MARGIN_BYTES / 4` (R10). -/
def Params.recommendedLimit (p : Params) : Nat := p.rszWords.toNat + Config.marginBytes / 4

/-- The pairs a host keeps that is interested in the tags of `wanted` (R208). -/
def keepWanted (wanted : List Tag) (pairs : List (Tag × Byte)) : List (Tag × Byte) :=
  pairs.filter fun p => wanted.contains p.1

/-- The unexpected tags a host may warn about: neither wanted nor 0 (R208, R230). -/
def unexpectedTags (wanted : List Tag) (pairs : List (Tag × Byte)) : List Tag :=
  (pairs.map Prod.fst).filter fun t => !wanted.contains t && t != 0

/-- The byte stream of one source (R193). -/
def sourceStream (t : Tag) (pairs : List (Tag × Byte)) : List Byte :=
  (pairs.filter fun p => p.1 == t).map Prod.snd

end Sys2Proof.Machine
end

