-- ==== Sys2Proof/Machine/Step.lean ====
section
/-! DEFINITION. One step of the machine: plain data in the state says which agent moves (spec/00_scope.md R8). -/

namespace Sys2Proof.Machine

/-- The block executes the command it took from the port (R32, R264), or rejects an illegal word (R221). -/
def runCommand (c : Command) (s : State) : Host.Outcome State Fault Refusal :=
  match decode c with
  | .legal i => exec i s.acceptCommand
  | .illegal _ => .next (s.acceptCommand.rejectIllegal c.cmd)

/-- The reset input comes first, between commands (R250); then a command waiting on the port is one atomic step
(R264); else the host moves. Log entries 6 and 7. -/
def step (s : State) : Host.Outcome State Fault Refusal :=
  if s.resetIn then .next s.blockReset
  else match s.port.pending with
    | some c => runCommand c s
    | none => hostStep s

/-- The state with a command of the opcode table waiting on the port, as if the host had just written it (R32), so that
the next step runs it: the reset input, which would come first, is not asserted. Log entry 6. -/
def State.withFetchWord (s : State) (nbits w : Nat) : State :=
  { s with port := { s.port with pending := some (tableCommand nbits w) }, resetIn := false }

end Sys2Proof.Machine
end

