-- ==== Sys2Proof/Laws/State.lean ====
section
/-! SUPPORT. The small lemmas of every update of the state: one per field, true by rfl, so that no later proof unfolds a
record update. -/

namespace Sys2Proof.Machine

@[simp] theorem respond_params (r : Response) (s : State) : (s.respond r).params = s.params := rfl
@[simp] theorem respond_C (r : Response) (s : State) : (s.respond r).C = s.C := rfl
@[simp] theorem respond_X (r : Response) (s : State) : (s.respond r).X = s.X := rfl
@[simp] theorem respond_port (r : Response) (s : State) : (s.respond r).port = { s.port with rsp := some r } := rfl
@[simp] theorem respond_resetIn (r : Response) (s : State) : (s.respond r).resetIn = s.resetIn := rfl
@[simp] theorem respond_dev (r : Response) (s : State) : (s.respond r).dev = s.dev := rfl
@[simp] theorem respond_env (r : Response) (s : State) : (s.respond r).env = s.env := rfl
@[simp] theorem respond_bus (r : Response) (s : State) : (s.respond r).bus = s.bus := rfl
@[simp] theorem respond_host (r : Response) (s : State) : (s.respond r).host = s.host := rfl

@[simp] theorem updateC_params (f : Controller → Controller) (s : State) : (s.updateC f).params = s.params := rfl
@[simp] theorem updateC_C (f : Controller → Controller) (s : State) : (s.updateC f).C = f s.C := rfl
@[simp] theorem updateC_X (f : Controller → Controller) (s : State) : (s.updateC f).X = s.X := rfl
@[simp] theorem updateC_port (f : Controller → Controller) (s : State) : (s.updateC f).port = s.port := rfl
@[simp] theorem updateC_resetIn (f : Controller → Controller) (s : State) : (s.updateC f).resetIn = s.resetIn := rfl
@[simp] theorem updateC_dev (f : Controller → Controller) (s : State) : (s.updateC f).dev = s.dev := rfl
@[simp] theorem updateC_env (f : Controller → Controller) (s : State) : (s.updateC f).env = s.env := rfl
@[simp] theorem updateC_bus (f : Controller → Controller) (s : State) : (s.updateC f).bus = s.bus := rfl
@[simp] theorem updateC_host (f : Controller → Controller) (s : State) : (s.updateC f).host = s.host := rfl

@[simp] theorem acceptCommand_params (s : State) : (s.acceptCommand).params = s.params := rfl
@[simp] theorem acceptCommand_C (s : State) : (s.acceptCommand).C = s.C := rfl
@[simp] theorem acceptCommand_X (s : State) : (s.acceptCommand).X = s.X := rfl
@[simp] theorem acceptCommand_port (s : State) : (s.acceptCommand).port = { pending := none, rsp := none } := rfl
@[simp] theorem acceptCommand_resetIn (s : State) : (s.acceptCommand).resetIn = s.resetIn := rfl
@[simp] theorem acceptCommand_dev (s : State) : (s.acceptCommand).dev = s.dev := rfl
@[simp] theorem acceptCommand_env (s : State) : (s.acceptCommand).env = s.env := rfl
@[simp] theorem acceptCommand_bus (s : State) : (s.acceptCommand).bus = s.bus := rfl
@[simp] theorem acceptCommand_host (s : State) : (s.acceptCommand).host = s.host := rfl

@[simp] theorem rejectIllegal_params (c : CmdWord) (s : State) : (s.rejectIllegal c).params = s.params := rfl
@[simp] theorem rejectIllegal_C (c : CmdWord) (s : State) : (s.rejectIllegal c).C = s.C := rfl
@[simp] theorem rejectIllegal_X (c : CmdWord) (s : State) : (s.rejectIllegal c).X = s.X := rfl
@[simp] theorem rejectIllegal_port (c : CmdWord) (s : State) : (s.rejectIllegal c).port = { s.port with rsp := some (.err (.illegalCommand c)) } := rfl
@[simp] theorem rejectIllegal_resetIn (c : CmdWord) (s : State) : (s.rejectIllegal c).resetIn = s.resetIn := rfl
@[simp] theorem rejectIllegal_dev (c : CmdWord) (s : State) : (s.rejectIllegal c).dev = s.dev := rfl
@[simp] theorem rejectIllegal_env (c : CmdWord) (s : State) : (s.rejectIllegal c).env = s.env := rfl
@[simp] theorem rejectIllegal_bus (c : CmdWord) (s : State) : (s.rejectIllegal c).bus = s.bus := rfl
@[simp] theorem rejectIllegal_host (c : CmdWord) (s : State) : (s.rejectIllegal c).host = s.host := rfl

@[simp] theorem blockReset_params (s : State) : (s.blockReset).params = s.params := rfl
@[simp] theorem blockReset_C (s : State) : (s.blockReset).C = Controller.reset := rfl
@[simp] theorem blockReset_X (s : State) : (s.blockReset).X = Demux.reset := rfl
@[simp] theorem blockReset_port (s : State) : (s.blockReset).port = { s.port with rsp := none } := rfl
@[simp] theorem blockReset_resetIn (s : State) : (s.blockReset).resetIn = false := rfl
@[simp] theorem blockReset_dev (s : State) : (s.blockReset).dev = s.dev := rfl
@[simp] theorem blockReset_env (s : State) : (s.blockReset).env = s.env := rfl
@[simp] theorem blockReset_bus (s : State) : (s.blockReset).bus = s.bus := rfl
@[simp] theorem blockReset_host (s : State) : (s.blockReset).host = s.host := rfl

@[simp] theorem issue_params (c : Command) (a : Await) (s : State) : (s.issue c a).params = s.params := rfl
@[simp] theorem issue_C (c : Command) (a : Await) (s : State) : (s.issue c a).C = s.C := rfl
@[simp] theorem issue_X (c : Command) (a : Await) (s : State) : (s.issue c a).X = s.X := rfl
@[simp] theorem issue_port (c : Command) (a : Await) (s : State) : (s.issue c a).port = { s.port with pending := some c } := rfl
@[simp] theorem issue_resetIn (c : Command) (a : Await) (s : State) : (s.issue c a).resetIn = s.resetIn := rfl
@[simp] theorem issue_dev (c : Command) (a : Await) (s : State) : (s.issue c a).dev = s.dev := rfl
@[simp] theorem issue_env (c : Command) (a : Await) (s : State) : (s.issue c a).env = s.env := rfl
@[simp] theorem issue_bus (c : Command) (a : Await) (s : State) : (s.issue c a).bus = s.bus := rfl
@[simp] theorem issue_host (c : Command) (a : Await) (s : State) : (s.issue c a).host = { s.host with awaiting := a } := rfl

@[simp] theorem takeResponse_params (h : HostState) (s : State) : (s.takeResponse h).params = s.params := rfl
@[simp] theorem takeResponse_C (h : HostState) (s : State) : (s.takeResponse h).C = s.C := rfl
@[simp] theorem takeResponse_X (h : HostState) (s : State) : (s.takeResponse h).X = s.X := rfl
@[simp] theorem takeResponse_port (h : HostState) (s : State) : (s.takeResponse h).port = { s.port with rsp := none } := rfl
@[simp] theorem takeResponse_resetIn (h : HostState) (s : State) : (s.takeResponse h).resetIn = s.resetIn := rfl
@[simp] theorem takeResponse_dev (h : HostState) (s : State) : (s.takeResponse h).dev = s.dev := rfl
@[simp] theorem takeResponse_env (h : HostState) (s : State) : (s.takeResponse h).env = s.env := rfl
@[simp] theorem takeResponse_bus (h : HostState) (s : State) : (s.takeResponse h).bus = s.bus := rfl
@[simp] theorem takeResponse_host (h : HostState) (s : State) : (s.takeResponse h).host = h := rfl

@[simp] theorem withFetchWord_params (s : State) (n w : Nat) : (s.withFetchWord n w).params = s.params := rfl
@[simp] theorem withFetchWord_C (s : State) (n w : Nat) : (s.withFetchWord n w).C = s.C := rfl
@[simp] theorem withFetchWord_X (s : State) (n w : Nat) : (s.withFetchWord n w).X = s.X := rfl
@[simp] theorem withFetchWord_port (s : State) (n w : Nat) : (s.withFetchWord n w).port = { s.port with pending := some (tableCommand n w) } := rfl
@[simp] theorem withFetchWord_resetIn (s : State) (n w : Nat) : (s.withFetchWord n w).resetIn = false := rfl
@[simp] theorem withFetchWord_dev (s : State) (n w : Nat) : (s.withFetchWord n w).dev = s.dev := rfl
@[simp] theorem withFetchWord_env (s : State) (n w : Nat) : (s.withFetchWord n w).env = s.env := rfl
@[simp] theorem withFetchWord_bus (s : State) (n w : Nat) : (s.withFetchWord n w).bus = s.bus := rfl
@[simp] theorem withFetchWord_host (s : State) (n w : Nat) : (s.withFetchWord n w).host = s.host := rfl

@[simp] theorem busRead_params (reg : RegName) (s : State) : (busRead reg s).2.params = s.params := rfl
@[simp] theorem busRead_C (reg : RegName) (s : State) : (busRead reg s).2.C = s.C := rfl
@[simp] theorem busRead_X (reg : RegName) (s : State) : (busRead reg s).2.X = s.X := rfl
@[simp] theorem busRead_port (reg : RegName) (s : State) : (busRead reg s).2.port = s.port := rfl
@[simp] theorem busRead_resetIn (reg : RegName) (s : State) : (busRead reg s).2.resetIn = s.resetIn := rfl
@[simp] theorem busRead_dev (reg : RegName) (s : State) : (busRead reg s).2.dev = s.dev := rfl
@[simp] theorem busRead_env (reg : RegName) (s : State) : (busRead reg s).2.env = s.env.advance := rfl
@[simp] theorem busRead_bus (reg : RegName) (s : State) : (busRead reg s).2.bus = s.bus ++ [.read reg (s.addrOf reg) s.C.phase (busRead reg s).1] := rfl
@[simp] theorem busRead_host (reg : RegName) (s : State) : (busRead reg s).2.host = s.host := rfl

@[simp] theorem busWrite_params (reg : RegName) (v : Word32) (s : State) : (busWrite reg v s).2.params = s.params := rfl
@[simp] theorem busWrite_C (reg : RegName) (v : Word32) (s : State) : (busWrite reg v s).2.C = s.C := rfl
@[simp] theorem busWrite_X (reg : RegName) (v : Word32) (s : State) : (busWrite reg v s).2.X = s.X := rfl
@[simp] theorem busWrite_port (reg : RegName) (v : Word32) (s : State) : (busWrite reg v s).2.port = s.port := rfl
@[simp] theorem busWrite_resetIn (reg : RegName) (v : Word32) (s : State) : (busWrite reg v s).2.resetIn = s.resetIn := rfl
@[simp] theorem busWrite_dev (reg : RegName) (v : Word32) (s : State) : (busWrite reg v s).2.dev = if s.env.next.ok || s.env.next.took then s.dev.written reg v else s.dev := rfl
@[simp] theorem busWrite_env (reg : RegName) (v : Word32) (s : State) : (busWrite reg v s).2.env = s.env.advance := rfl
@[simp] theorem busWrite_bus (reg : RegName) (v : Word32) (s : State) : (busWrite reg v s).2.bus = s.bus ++ [.write reg (s.addrOf reg) v s.env.next.ok (s.env.next.ok || s.env.next.took)] := rfl
@[simp] theorem busWrite_host (reg : RegName) (v : Word32) (s : State) : (busWrite reg v s).2.host = s.host := rfl

end Sys2Proof.Machine
end

