-- ==== Sys2Proof/Laws/Ops.lean ====
section
/-! SUPPORT. One lemma per way a shared operation can end: Load, Store, RMW (spec/40_register_shim.md), the wrapper of
controller commands (spec/41_controller_ops.md R130), and the commands' answer of a next state. -/

namespace Sys2Proof.Machine

@[simp] theorem andThen_done {α β : Type} (v : α) (s : State) (f : α → State → Result β) :
    (Result.done v s).andThen f = f v s := rfl

@[simp] theorem andThen_raised {α β : Type} (e : CmdError) (s : State) (f : α → State → Result β) :
    (Result.raised e s : Result α).andThen f = .raised e s := rfl

@[simp] theorem respond_done (v : RspValue) (s : State) : (Result.done v s).respond = s.respond (.ok v) := rfl

@[simp] theorem respond_raised (e : CmdError) (s : State) :
    (Result.raised e s : Result RspValue).respond = s.respond (.err e) := rfl

/-- The state after a read transaction that answered `r`. -/
abbrev afterRead (reg : RegName) (r : Option Word32) (s : State) : State :=
  { s with env := s.env.advance, bus := s.bus ++ [.read reg (s.addrOf reg) s.C.phase r] }

/-- The state after a write transaction. -/
abbrev afterWrite (reg : RegName) (v : Word32) (ok took : Bool) (s : State) : State :=
  { s with
    env := s.env.advance
    dev := if took then s.dev.written reg v else s.dev
    bus := s.bus ++ [.write reg (s.addrOf reg) v ok took] }

/-- Latch a fault (R225). -/
abbrev latch (f : SessionFault) (s : State) : State := { s with C := { s.C with fault := f } }

/-- Load with a completed transaction (R121). -/
theorem load_done (reg : RegName) (s : State) (h : s.env.next.ok = true) :
    load reg s = .done (s.readValue reg) (afterRead reg (some (s.readValue reg)) s) := by
  simp [load, busRead, h]

/-- Load with a failed transaction (R121, R222). -/
theorem load_raised (reg : RegName) (s : State) (h : s.env.next.ok = false) :
    load reg s = .raised (.transportError reg .R) (latch (.transport reg .R) (afterRead reg none s)) := by
  simp [load, busRead, h, takeFault]

/-- Store with a completed transaction (R122). -/
theorem store_done (reg : RegName) (v : Word32) (s : State) (h : s.env.next.ok = true) :
    store reg v s = .done () (afterWrite reg v true true s) := by
  simp [store, busWrite, h]

/-- Store with a failed transaction (R122, R222, R76). -/
theorem store_raised (reg : RegName) (v : Word32) (s : State) (h : s.env.next.ok = false) :
    store reg v s =
      .raised (.transportError reg .W) (latch (.transport reg .W) (afterWrite reg v false s.env.next.took s)) := by
  simp [store, busWrite, h, takeFault]

/-- Everything Load can do. -/
theorem load_cases (reg : RegName) (s : State) :
    (s.env.next.ok = true ∧ load reg s = .done (s.readValue reg) (afterRead reg (some (s.readValue reg)) s)) ∨
    (s.env.next.ok = false ∧
      load reg s = .raised (.transportError reg .R) (latch (.transport reg .R) (afterRead reg none s))) := by
  cases h : s.env.next.ok
  · exact .inr ⟨rfl, load_raised reg s h⟩
  · exact .inl ⟨rfl, load_done reg s h⟩

/-- Everything Store can do. -/
theorem store_cases (reg : RegName) (v : Word32) (s : State) :
    (s.env.next.ok = true ∧ store reg v s = .done () (afterWrite reg v true true s)) ∨
    (s.env.next.ok = false ∧
      store reg v s =
        .raised (.transportError reg .W) (latch (.transport reg .W) (afterWrite reg v false s.env.next.took s))) := by
  cases h : s.env.next.ok
  · exact .inr ⟨rfl, store_raised reg v s h⟩
  · exact .inl ⟨rfl, store_done reg v s h⟩

/-- RMW whose read fails issues no write (R123). -/
theorem rmw_readFails (reg : RegName) (f : Word32 → Word32) (s : State) (h : s.env.next.ok = false) :
    rmw reg f s = .raised (.transportError reg .R) (latch (.transport reg .R) (afterRead reg none s)) := by
  simp [rmw, load_raised reg s h]

/-- RMW whose read completes is the store of the modified word (R123). -/
theorem rmw_readDone (reg : RegName) (f : Word32 → Word32) (s : State) (h : s.env.next.ok = true) :
    rmw reg f s = store reg (f (s.readValue reg)) (afterRead reg (some (s.readValue reg)) s) := by
  simp [rmw, load_done reg s h]

/-- The wrapper with no fault latched runs the body (R130). -/
theorem runController_runs (i : Instr) (body : State → Result RspValue) (s : State)
    (hw : i.wellFormed = true) (hf : s.C.fault = .noFault) : runController i body s = (body s).respond := by
  simp [runController, hw, hf]

/-- The wrapper with a fault latched refuses (R224). -/
theorem runController_aborted (i : Instr) (body : State → Result RspValue) (s : State)
    (hw : i.wellFormed = true) (hf : s.C.fault ≠ .noFault) :
    runController i body s = s.respond (.err (.sessionAborted s.C.fault)) := by
  simp [runController, hw, hf]

/-- The wrapper of an illegal command (R221). -/
theorem runController_illegal (i : Instr) (body : State → Result RspValue) (s : State)
    (hw : i.wellFormed = false) : runController i body s = s.respond (.err (.illegalCommand (encode i).cmd)) := by
  simp [runController, hw]

/-- The next state of a command. -/
def execState (i : Instr) (s : State) : State :=
  match exec i s with
  | .next t => t
  | .fault _ => s
  | .refused _ => s

/-- Every command answers a next state: errors are responses (R220). -/
theorem exec_eq_next (i : Instr) (s : State) : exec i s = .next (execState i s) := by
  cases i <;> rfl

theorem exec_next_iff (i : Instr) (s t : State) : exec i s = .next t ↔ execState i s = t := by
  rw [exec_eq_next]; exact ⟨fun h => Host.Outcome.next.inj h, fun h => h ▸ rfl⟩

end Sys2Proof.Machine
end

