-- ==== Sys2Proof/Laws/PerInstr.lean ====
section
/-! SUPPORT. The family Encoding: what holds of every command as syntax, one lemma per constructor. -/

namespace Sys2Proof.Laws.Encoding

/-- The pattern of the command's row of the opcode table admits its encoding (R92). -/
def Statement (i : Instr) : Prop :=
  ∃ r ∈ opRows, r.mnemonic = i.mnemonic ∧ (i.wellFormed = true → r.admits (encode i).cmd = true)

theorem setMode (mm : Bits2) : Statement (.setMode mm) :=
  ⟨⟨.SET_MODE, 0xFFFC, 0x0100⟩, by simp [opRows], rfl, fun _ => by
    have h : ∀ m : Bits2, OpRow.admits ⟨.SET_MODE, 0xFFFC, 0x0100⟩ (encode (.setMode m)).cmd = true := by decide
    exact h mm⟩

theorem enableCapture : Statement .enableCapture := by unfold Statement; decide
theorem disableCapture : Statement .disableCapture := by unfold Statement; decide
theorem readOne : Statement .readOne := by unfold Statement; decide
theorem isFull : Statement .isFull := by unfold Statement; decide
theorem isEmpty : Statement .isEmpty := by unfold Statement; decide
theorem isReady : Statement .isReady := by unfold Statement; decide
theorem isTriggered : Statement .isTriggered := by unfold Statement; decide
theorem fillLevel : Statement .fillLevel := by unfold Statement; decide
theorem fifoSize : Statement .fifoSize := by unfold Statement; decide

theorem requestStopOnFlush (b : Bool) : Statement (.requestStopOnFlush b) := by
  unfold Statement; cases b <;> decide

theorem triggerManualFlush : Statement .triggerManualFlush := by unfold Statement; decide

theorem demuxInit (t : Tag) : Statement (.demuxInit t) :=
  ⟨⟨.DEMUX_INIT, 0xFF80, 0x2000⟩, by simp [opRows], rfl, fun _ => by
    have h : (0x2000#16 ||| t.setWidth 16) &&& 0xFF80#16 = 0x2000#16 := by
      apply BitVec.eq_of_getLsbD_eq
      intro i hi
      interval_cases i <;> simp
    simpa [OpRow.admits, encode] using h⟩

theorem demuxFeed (w : Word32) : Statement (.demuxFeed w) :=
  ⟨⟨.DEMUX_FEED, 0xFFFF, 0x2100⟩, by decide, rfl, fun _ => by
    show ((0x2100#16 &&& 0xFFFF#16) == 0x2100#16) = true
    decide⟩

theorem demuxStatus : Statement .demuxStatus := by unfold Statement; decide
theorem getState : Statement .getState := by unfold Statement; decide

end Sys2Proof.Laws.Encoding
end

