-- ==== Sys2Proof/Machine/Session.lean ====
section
/-! DEFINITION. Capture sessions over a run: when one starts and how it ends, its drained stream, and the end of a run
(spec/42_lifecycle_fsm.md R168, R169). The block keeps none of this (R20): it is read off the steps of a run. -/

namespace Sys2Proof.Machine

/-- A session is in progress (R150, R169): outside phase Disabled, until a fault aborts it. -/
abbrev sessionInProgress (s : State) : Prop := s.C.phase ≠ .disabled ∧ s.C.fault = .noFault

/-- A session starts (R168): ENABLE_CAPTURE took phase Disabled to Armed. -/
abbrev sessionStarts (i : Instr) (s t : State) : Prop :=
  i = .enableCapture ∧ s.C.phase = .disabled ∧ t.C.phase = .armed

/-- A session ends well (R168): a DISABLE_CAPTURE took phase Drained to Disabled, with no fault and the lifecycle kept. -/
abbrev sessionEndsWell (i : Instr) (s t : State) : Prop :=
  i = .disableCapture ∧ s.C.phase = .drained ∧ t.C.phase = .disabled ∧ t.C.fault = .noFault ∧ t.C.lifecycleOk = true

/-- A session ends by abort (R168): a fault was latched while it was in progress. A fault with no session started, such
as that of a failed SET_MODE in Disabled, ends none. -/
abbrev sessionAborts (s t : State) : Prop := sessionInProgress s ∧ t.C.fault ≠ .noFault

/-- A session ends in neither way: Disabled was entered, but not from Drained with the lifecycle kept. Log entry 18. -/
abbrev sessionLeaves (i : Instr) (s t : State) : Prop :=
  s.C.phase ≠ .disabled ∧ t.C.phase = .disabled ∧ ¬ sessionEndsWell i s t

/-- The word a command adds to the session's drained stream (R168): what READ_ONE answered as `Some` in Stopping. -/
def drainedWord (i : Instr) (s t : State) : Option Word32 :=
  if i = .readOne ∧ s.C.phase = .stopping then
    match t.port.rsp with
    | some (.ok (.optWord w)) => w
    | _ => none
  else none

/-- How a session ended (R168). `otherwise`, which R168 does not name, is a session given up: capture was disabled before
the drain concluded or with the lifecycle broken, or the block was reset. Log entry 18. -/
inductive SessionEnd where
  | well | byAbort | otherwise
  deriving DecidableEq, Repr

/-- A session that has ended, with its drained stream: the words in the order READ_ONE returned them (R168). -/
structure EndedSession where
  how : SessionEnd
  stream : List Word32
  deriving DecidableEq, Repr

/-- The sessions of a run so far: the drained stream of the one in progress, if there is one, and those that have ended,
oldest first. -/
structure Sessions where
  current : Option (List Word32)
  ended : List EndedSession
  deriving DecidableEq, Repr

/-- No session yet. -/
def Sessions.start : Sessions where
  current := none
  ended := []

/-- The session in progress ends; where there is none, nothing does. -/
def Sessions.close (how : SessionEnd) (x : Sessions) : Sessions :=
  match x.current with
  | some l => { current := none, ended := x.ended ++ [⟨how, l⟩] }
  | none => x

/-- The session in progress has drained a word, if it has. -/
def Sessions.drain (w : Option Word32) (x : Sessions) : Sessions :=
  { x with current := x.current.map (· ++ w.toList) }

/-- The sessions after a command that took the block from s to t (R168). -/
def Sessions.afterCommand (i : Instr) (s t : State) (x : Sessions) : Sessions :=
  if sessionAborts s t then x.close .byAbort
  else if sessionStarts i s t then { x with current := some [] }
  else if sessionEndsWell i s t then x.close .well
  else if sessionLeaves i s t then x.close .otherwise
  else x.drain (drainedWord i s t)

/-- The command a step from this state executes, if it executes one (R264). -/
def State.nextCommand (s : State) : Option Instr :=
  if s.resetIn then none else s.port.pending.bind fun c => (decode c).instr?

/-- The sessions after a step from s to t: a reset gives up the session in progress (log entry 18), a command does what
R168 says, and no other step touches a session. -/
def Sessions.afterStep (s t : State) (x : Sessions) : Sessions :=
  if s.resetIn then x.close .otherwise
  else match s.nextCommand with
    | some i => x.afterCommand i s t
    | none => x

/-- A session of the run has ended well or by abort (R168). -/
def Sessions.oneEnded (x : Sessions) : Bool :=
  x.ended.any fun e => e.how == .well || e.how == .byAbort

/-- The host's script will issue nothing more: it has stopped, or has no line and no word of `FEED B` left, and no
response is awaited (R201). -/
def HostState.finished (h : HostState) : Bool :=
  h.awaiting == .idle && match h.status with
    | .running => h.feed.isEmpty && decide (h.script.length ≤ h.pos)
    | .ended => true
    | .aborted _ => true

/-- The host has no further command (R168): none on the port, and none to come. Log entry 18. -/
def State.noFurtherCommand (s : State) : Bool := s.port.pending.isNone && s.host.finished

/-- The state and the sessions after n steps of a run, if it gets so far. -/
def runSessions : Nat → State → Sessions → Option (State × Sessions)
  | 0, s, x => some (s, x)
  | n + 1, s, x =>
    match step s with
    | .next t => runSessions n t (x.afterStep s t)
    | .fault _ => none
    | .refused _ => none

/-- After n steps a session of the run has ended well or by abort and the host has no further command (R168). -/
def runOver (n : Nat) (s : State) : Bool :=
  match runSessions n s Sessions.start with
  | some (t, x) => x.oneEnded && t.noFurtherCommand
  | none => false

/-- The run from s ends after n steps: that is the first state in which it is over (R168). -/
abbrev runEndsAfter (n : Nat) (s : State) : Prop := runOver n s = true ∧ ∀ m < n, runOver m s = false

end Sys2Proof.Machine
end

