-- ==== Sys2Proof/Safety.lean ====
section
/-! DEFINITION. What the claims speak of: well-formed parameters and states, the drain contract on the bus history
(spec/20_memory.md R74), and described frames (spec/43_frame_demux.md R184 to R190). -/

namespace Sys2Proof.Machine

/-- `ETF_BASE` is a multiple of 4 (R54) and every address of the map fits in `ADDR_W` bits. Log entry 5. -/
abbrev Params.wf (p : Params) : Prop := p.etfBase % 4 = 0 ∧ p.etfBase + 0x308 ≤ 2 ^ p.addrW

/-- The counter stays within the limit, and one above it only with the fault that says so latched (R26, R166). -/
abbrev drainBounded (s : State) : Prop :=
  s.C.drainedWords ≤ s.params.drainLimit ∨
    (s.C.drainedWords = s.params.drainLimit + 1 ∧ s.C.fault = .protocol .drainLimit)

/-- The elements of `C` and `X` stay in the ranges R23, R26 and R30 give them, and `B` within its capacity (R204). -/
structure State.Inv (s : State) : Prop where
  drained : drainBounded s
  cfgMode : s.C.cfgMode ≠ 0b11#2
  held : s.X.fwords.length < Config.frameWords
  buffer : s.host.buf.length ≤ s.params.bufferWords

/-- How much of the drain contract's premise the bus history shows (R74): nothing, a Status read with `ready` = 1 in
phase Stopping as the last transaction, or that followed immediately by the sentinel and no write of 1 to Control since. -/
inductive DrainWatch where
  | idle | readySeen | exhausted
  deriving DecidableEq, Repr

/-- A Status read with `ready` = 1 in phase Stopping (R74). -/
def BusEvent.showsReady : BusEvent → Bool
  | .read .STS _ .stopping (some v) => (decodeStatus v).ready
  | _ => false

/-- A Read-data read that returned the sentinel (R73). -/
def BusEvent.showsEmpty : BusEvent → Bool
  | .read .RRD _ _ (some v) => v == Config.sentinel
  | _ => false

/-- A Read-data read that returned a FIFO word (R73). -/
def BusEvent.showsWord : BusEvent → Bool
  | .read .RRD _ _ (some v) => v != Config.sentinel
  | _ => false

/-- A write of 1 to Control (R74 "until the next write of 1 to Control"), whatever became of it. -/
def BusEvent.enablesCapture : BusEvent → Bool
  | .write .CTL _ v _ _ => v.getLsbD 0
  | _ => false

/-- The watch after one more transaction (R74). Log entry 11. -/
def DrainWatch.next (w : DrainWatch) (e : BusEvent) : DrainWatch :=
  match w with
  | .exhausted => if e.enablesCapture then .idle else .exhausted
  | .readySeen => if e.showsEmpty then .exhausted else if e.showsReady then .readySeen else .idle
  | .idle => if e.showsReady then .readySeen else .idle

/-- The watch over a history. -/
def drainWatch (bus : List BusEvent) : DrainWatch := bus.foldl DrainWatch.next .idle

/-- From a watch, no transaction of the history returns a word the contract excludes (R74). -/
def contractHoldsFrom : DrainWatch → List BusEvent → Bool
  | _, [] => true
  | w, e :: es => !(w == .exhausted && e.showsWord) && contractHoldsFrom (w.next e) es

/-- `DrainContract` (R74), the named assumption on the device oracle. -/
def DrainContract (bus : List BusEvent) : Bool := contractHoldsFrom .idle bus

/-- While no fault is latched, a ready observation that still counts is in the bus history (R25, R74). -/
abbrev readyWitnessed (s : State) : Prop :=
  s.C.fault = .noFault → s.C.readyLast = true →
    s.C.phase = .stopping ∧ (drainWatch s.bus = .readySeen ∨ drainWatch s.bus = .exhausted)

/-- The offset of a transaction's address from `ETF_BASE` is one of the map's, and the address is 4-byte aligned (R50, R54). -/
def BusEvent.addressed (p : Params) : BusEvent → Bool
  | .read reg addr _ _ => addr == p.etfBase + reg.off
  | .write reg addr _ _ _ => addr == p.etfBase + reg.off

/-- A write to FFCR that requests a flush (R57). -/
def BusEvent.requestsFlush : BusEvent → Bool
  | .write .FFCR _ v _ _ => v.getLsbD 6
  | _ => false

/-- What an even byte of a frame says (R186): a data byte, or a change to a tag, immediate or delayed (R187). -/
inductive EvenItem where
  | data (b : Byte)
  | newTag (t : Tag) (delayed : Bool)
  deriving DecidableEq, Repr

/-- What byte 14 says (R190): a data byte, or the tag of the next frame; its aux bit is then ignored. -/
inductive LastItem where
  | data (b : Byte)
  | newTag (t : Tag) (spare : Bool)
  deriving DecidableEq, Repr

/-- A frame described by its seven even items, each with its odd byte (R189), and its last item. -/
structure FrameDesc where
  pairs : List (EvenItem × Byte)
  last : LastItem
  deriving DecidableEq, Repr

/-- The even byte an item is written as (R186). -/
def EvenItem.byte : EvenItem → Byte
  | .data b => b.extractLsb' 1 7 ++ 0#1
  | .newTag t _ => t ++ 1#1

/-- The aux bit of an item's even byte (R187, R188). -/
def EvenItem.aux : EvenItem → Bool
  | .data b => b.getLsbD 0
  | .newTag _ delayed => delayed

/-- Byte 14 as it is written (R190). -/
def LastItem.byte : LastItem → Byte
  | .data b => b.extractLsb' 1 7 ++ 0#1
  | .newTag t _ => t ++ 1#1

/-- The aux bit of byte 14 (R190). -/
def LastItem.aux : LastItem → Bool
  | .data b => b.getLsbD 0
  | .newTag _ spare => spare

/-- A word from its four bytes, least significant first (R52, R184). -/
def wordOfBytes (b0 b1 b2 b3 : Byte) : Word32 := b3 ++ b2 ++ b1 ++ b0

/-- The words of a list of bytes, four bytes each (R184). -/
def wordsOfBytes : List Byte → List Word32
  | b0 :: b1 :: b2 :: b3 :: bs => wordOfBytes b0 b1 b2 b3 :: wordsOfBytes bs
  | _ => []

/-- The aux byte of a frame (R189): the aux bit of even byte 2k at bit k. -/
def FrameDesc.auxByte (d : FrameDesc) : Byte :=
  (BitVec.ofBoolListLE (d.pairs.map (fun p => p.1.aux) ++ [d.last.aux])).setWidth 8

/-- The four words of a described frame (R184, R186, R189). -/
def FrameDesc.words (d : FrameDesc) : List Word32 :=
  wordsOfBytes (d.pairs.flatMap (fun p => [p.1.byte, p.2]) ++ [d.last.byte, d.auxByte])

/-- What one described pair outputs, and the tag after it (R187, R188, R189). -/
def pairMeaning (p : EvenItem × Byte) (t : Tag) : List (Tag × Byte) × Tag :=
  match p with
  | (.data b, o) => ([(t, b), (t, o)], t)
  | (.newTag n true, o) => ([(t, o)], n)
  | (.newTag n false, o) => ([(n, o)], n)

/-- What the described pairs output in ascending byte position (R191), and the tag after them. -/
def pairsMeaning : List (EvenItem × Byte) → Tag → List (Tag × Byte) × Tag
  | [], t => ([], t)
  | p :: ps, t =>
    ((pairMeaning p t).1 ++ (pairsMeaning ps (pairMeaning p t).2).1, (pairsMeaning ps (pairMeaning p t).2).2)

/-- What a described frame outputs from an active tag, and the tag the next frame starts with (R190, R192). -/
def FrameDesc.meaning (d : FrameDesc) (t : Tag) : List (Tag × Byte) × Tag :=
  let m := pairsMeaning d.pairs t
  match d.last with
  | .data b => (m.1 ++ [(m.2, b)], m.2)
  | .newTag n _ => (m.1, n)

/-- The pairs that follow one another over a stream of described frames, and the tag after it (R191, R192). -/
def streamMeaning : List FrameDesc → Tag → List (Tag × Byte) × Tag
  | [], t => ([], t)
  | d :: ds, t => ((d.meaning t).1 ++ (streamMeaning ds (d.meaning t).2).1, (streamMeaning ds (d.meaning t).2).2)

/-- The pairs of a DEMUX_FEED response (R182). -/
def State.fedPairs (s : State) : List (Tag × Byte) :=
  match s.port.rsp with
  | some (.ok (.pairs l)) => l
  | _ => []

/-- Issue one DEMUX_FEED for each word in order, and join the output pairs (R191, R201 `FEED B`). -/
def feedAll : List Word32 → State → State × List (Tag × Byte)
  | [], s => (s, [])
  | w :: ws, s =>
    match exec (.demuxFeed w) s with
    | .next t => ((feedAll ws t).1, t.fedPairs ++ (feedAll ws t).2)
    | .fault _ => (s, [])
    | .refused _ => (s, [])

end Sys2Proof.Machine
end

