-- ==== Sys2Proof/Certificates/Slice0/Obligations.lean ====
section
/-! DEFINITION. The statements about the model, from the numbered rules of spec/. -/

namespace Sys2Proof.Claims

open Sys2Proof.Machine

/-- The block has answered `r` and nothing else has changed. -/
def answered (r : Response) (s : State) : State := { s with port := { s.port with rsp := some r } }

/-- A command has ended with the response `r`: `es` are the transactions it issued, one draw of the environment for each
(log entry 1), `C'` and `dev'` the controller and the device after it. Everything else is as the command found it. -/
def ended (s : State) (C' : Controller) (dev' : Device) (es : List BusEvent) (r : Response) : State :=
  { s with
    C := C'
    dev := dev'
    env := Nat.iterate Env.advance es.length s.env
    bus := s.bus ++ es
    port := { s.port with rsp := some r } }

/-- A read of the register at an offset, as issued in `s`. -/
def readAt (s : State) (reg : RegName) (off : Nat) (answer : Option Word32) : BusEvent :=
  .read reg (s.params.etfBase + off) s.C.phase answer

/-- A write of the register at an offset, as issued in `s`. -/
def writeAt (s : State) (reg : RegName) (off : Nat) (v : Word32) (ok took : Bool) : BusEvent :=
  .write reg (s.params.etfBase + off) v ok took

/-- The first transaction of a command completes. -/
abbrev firstOk (s : State) : Prop := s.env.next.ok = true

/-- The second transaction of a command completes. -/
abbrev secondOk (s : State) : Prop := s.env.advance.next.ok = true

/-- With a fault latched the command is refused: no transaction, no state change (R224). -/
def RefusedWhenLatched (i : Instr) : Prop :=
  ∀ s : State, s.C.fault ≠ .noFault → exec i s = .next (answered (.err (.sessionAborted s.C.fault)) s)

/-- The command's first transaction is a read of the register at `off`; when it fails the command ends there (R222). -/
def ReadFailureEnds (i : Instr) (reg : RegName) (off : Nat) : Prop :=
  ∀ s : State, s.C.fault = .noFault → s.env.next.ok = false →
    exec i s = .next (ended s { s.C with fault := .transport reg .R } s.dev [readAt s reg off none]
      (.err (.transportError reg .R)))

/-- The command is one write of Control; when it fails the command ends there, and the device took the word or not, as
the environment drew (R222, R76). -/
def ControlWriteFailureEnds (i : Instr) (v : Word32) : Prop :=
  ∀ s : State, s.C.fault = .noFault → s.env.next.ok = false →
    exec i s = .next (ended s { s.C with fault := .transport .CTL .W }
      (if s.env.next.took then { s.dev with ctlW := some v } else s.dev)
      [writeAt s .CTL 0x020 v false s.env.next.took] (.err (.transportError .CTL .W)))

/-- A command that is one read of a status or level register: its word, its refusal with a fault latched, its failed
read, and its completion with the value `f v` and the controller `g v C` for the word v read. -/
def SingleReadCommand (i : Instr) (word : CmdWord) (reg : RegName) (off : Nat)
    (f : Word32 → RspValue) (g : Word32 → Controller → Controller) : Prop :=
  (∀ data, decode ⟨word, data⟩ = .legal i) ∧ RefusedWhenLatched i ∧ ReadFailureEnds i reg off ∧
  ∀ s : State, s.C.fault = .noFault → firstOk s →
    exec i s = .next (ended s (g (s.readValue reg) s.C) s.dev [readAt s reg off (some (s.readValue reg))]
      (.ok (f (s.readValue reg))))

/-- A command that is one write of Control: its word, its refusal with a fault latched, its failed write, and its
completion with the controller `g C`. -/
def ControlWriteCommand (i : Instr) (word : CmdWord) (v : Word32) (g : Controller → Controller) : Prop :=
  (∀ data, decode ⟨word, data⟩ = .legal i) ∧ RefusedWhenLatched i ∧ ControlWriteFailureEnds i v ∧
  ∀ s : State, s.C.fault = .noFault → firstOk s →
    exec i s = .next (ended s (g s.C) { s.dev with ctlW := some v } [writeAt s .CTL 0x020 v true true] (.ok .unit))

/-- The stop-on-flush request is on record: on a device that obeys the laws, the FFCR word last written has bit 12 set
whenever the request counts (R24, R70). -/
abbrev requestOnRecord (s : State) : Prop :=
  s.dev.lawful = true → s.C.fault = .noFault → s.C.phase.capturing = true → s.C.sofReq = true →
    ∃ v, s.dev.ffcrW = some v ∧ v.getLsbD 12 = true

/-- The host is about to run the script line `l` (R201): its script runs, it waits for no response, no `FEED B` goes on,
and neither a reset nor a command comes before it. -/
def runsLine (s : State) (l : Line) : Prop :=
  s.resetIn = false ∧ s.port.pending = none ∧ s.host.awaiting = .idle ∧ s.host.status = .running ∧ s.host.feed = [] ∧
  ∃ name, s.host.script[s.host.pos]? = some ⟨name, l⟩

/-- Line p of the script is the one the label names, the first that carries it (log entry 8). -/
def namesLine (script : List ScriptLine) (name : Label) (p : Nat) : Prop :=
  (∃ l, script[p]? = some ⟨some name, l⟩) ∧ ∀ q < p, ∀ l, script[q]? ≠ some ⟨some name, l⟩

/-- When a condition holds of `last` (R201, the table of conditions); EXT is the host's free choice. -/
def lastMeets (h : HostState) : Cond → Prop
  | .isTrue => h.last = some (.ok (.bool true))
  | .isFalse => h.last = some (.ok (.bool false))
  | .isSome => ∃ w, h.last = some (.ok (.optWord (some w)))
  | .isNone => h.last = some (.ok (.optWord none))
  | .isErr => ∃ e, h.last = some (.err e)
  | .ext => h.nextExt = true

end Sys2Proof.Claims

open Sys2Proof Sys2Proof.Machine Sys2Proof.Claims

/-! ### Encoding and decoding -/

/-- 30_encoding.md Part B: decoding the words of a well-formed command gives the command back, every operand included. -/
def Obligations.DecodeEncodeRoundTrip : Prop :=
  ∀ i : Instr, i.wellFormed = true → decode (encode i) = .legal i

/-- 30_encoding.md Part B, the other direction: a legal word decodes to a well-formed command whose encoding is that
word, and whose operand is DATA where the command has one. -/
def Obligations.DecodedCommandReencodes : Prop :=
  ∀ (c : Command) (i : Instr), decode c = .legal i →
    i.wellFormed = true ∧ (encode i).cmd = c.cmd ∧ (∀ w, i = .demuxFeed w → w = c.data)

/-- R92: the patterns of the table do not overlap, a legal word meets the pattern of the row it is decoded to, and every
word that meets a pattern is legal but for SET_MODE with mode 11. -/
def Obligations.LegalWordsAreThePatterns : Prop :=
  (∀ r ∈ opRows, ∀ q ∈ opRows, ∀ c : CmdWord, r.admits c = true → q.admits c = true → r = q) ∧
  (∀ (c : Command) (i : Instr), decode c = .legal i → ∃ r ∈ opRows, r.mnemonic = i.mnemonic ∧ r.admits c.cmd = true) ∧
  (∀ (c : Command), (∃ r ∈ opRows, r.admits c.cmd = true) → c.cmd ≠ 0x0103 → ∃ i, decode c = .legal i)

/-- R93, R221: a word that meets no pattern, and SET_MODE with mode 11, is answered with ILLEGAL_COMMAND whatever DATA
holds and whether or not a fault is latched; no transaction is issued, and the controller, the demultiplexer and all
else keep their values. -/
def Obligations.IllegalWordChangesNothing : Prop :=
  ∀ (s : State) (c : Command), s.resetIn = false → s.port.pending = some c →
    ((∀ r ∈ opRows, r.admits c.cmd = false) ∨ c.cmd = 0x0103) →
    step s = .next { s with port := { pending := none, rsp := some (.err (.illegalCommand c.cmd)) } }

/-- R91, R92: words written out from the table, one or more for each unit, and neighbours that are illegal. -/
def Obligations.TableWordsDecode : Prop :=
  decode ⟨0x0102, 0⟩ = .legal (.setMode 0b10) ∧ decode ⟨0x0103, 0⟩ = .illegal .illegalMode ∧
  decode ⟨0x0104, 0⟩ = .illegal .reservedBits ∧ decode ⟨0x0B01, 7⟩ = .legal (.requestStopOnFlush true) ∧
  decode ⟨0x0C00, 0⟩ = .legal .triggerManualFlush ∧ decode ⟨0x207F, 0⟩ = .legal (.demuxInit 127) ∧
  decode ⟨0x2080, 0⟩ = .illegal .reservedBits ∧ decode ⟨0x2100, 0xDEADBEEF⟩ = .legal (.demuxFeed 0xDEADBEEF) ∧
  decode ⟨0x3000, 0⟩ = .legal .getState ∧ decode ⟨0x0D00, 0⟩ = .illegal .unassignedOp

/-- R96: what the assembler accepts is well formed and has the mnemonic written, every well-formed command can be
written, and which operand gives which field: circular, software and hardware are 0, 1 and 2, true is 1 and false 0, a tag
and a word are the number written, and every other mnemonic takes no operand. -/
def Obligations.AssemblerCoversCommands : Prop :=
  (∀ m o i, assemble m o = some i → i.wellFormed = true ∧ i.mnemonic = m) ∧
  (∀ i : Instr, i.wellFormed = true → ∃ o, assemble i.mnemonic o = some i) ∧
  (∀ o i, assemble .SET_MODE o = some i ↔
    ((o = .modeName .circular ∨ o = .number 0) ∧ i = .setMode 0b00) ∨
    ((o = .modeName .software ∨ o = .number 1) ∧ i = .setMode 0b01) ∨
    ((o = .modeName .hardware ∨ o = .number 2) ∧ i = .setMode 0b10)) ∧
  (∀ o i, assemble .REQUEST_STOP_ON_FLUSH o = some i ↔
    ((o = .boolName true ∨ o = .number 1) ∧ i = .requestStopOnFlush true) ∨
    ((o = .boolName false ∨ o = .number 0) ∧ i = .requestStopOnFlush false)) ∧
  (∀ o i, assemble .DEMUX_INIT o = some i ↔ ∃ n < 128, o = .number n ∧ i = .demuxInit (BitVec.ofNat 7 n)) ∧
  (∀ o i, assemble .DEMUX_FEED o = some i ↔ ∃ n < 2 ^ 32, o = .number n ∧ i = .demuxFeed (BitVec.ofNat 32 n)) ∧
  (∀ m o i, m ≠ .SET_MODE → m ≠ .REQUEST_STOP_ON_FLUSH → m ≠ .DEMUX_INIT → m ≠ .DEMUX_FEED →
    (assemble m o = some i ↔ o = .absent ∧ i.mnemonic = m))

/-- 70_reset_and_hazards.md R264: a command on the port whose word decodes to i is taken off the port, and the step is
exec of i there. -/
def Obligations.StepRunsDecodedCommand : Prop :=
  ∀ (s : State) (c : Command) (i : Instr), s.resetIn = false → s.port.pending = some c → decode c = .legal i →
    step s = exec i { s with port := { pending := none, rsp := none } }

/-! ### The register codec -/

/-- R82: bits [1:0] of the word SET_MODE stores are the mode and bits [31:2] are those read, so it decodes to the mode. -/
def Obligations.EncodeModeKeepsReservedBits : Prop :=
  ∀ (v : Word32) (m : Bits2), (encodeMode v m).extractLsb' 0 2 = m ∧
    (encodeMode v m).extractLsb' 2 30 = v.extractLsb' 2 30

/-- R85, R86: REQUEST_STOP_ON_FLUSH's word has bit 12 = b, bit 6 = 0 and every other bit as read, and
TRIGGER_MANUAL_FLUSH's has bit 6 = 1 and every other bit as read. -/
def Obligations.FlushControlWordsBitByBit : Prop :=
  ∀ (v : Word32) (b : Bool) (i : Nat), i < 32 →
    ((encodeFFCRsof v b).getLsbD i = if i = 12 then b else if i = 6 then false else v.getLsbD i) ∧
    ((encodeFFCRflush v).getLsbD i = if i = 6 then true else v.getLsbD i)

/-- R83, R84: the Status flags are bits 0, 1, 2 and 4 and the FFCR flags bits 6 and 12; no other bit matters. -/
def Obligations.ReservedBitsAreIgnored : Prop :=
  (∀ v u : Word32, v &&& 0x17 = u &&& 0x17 → decodeStatus v = decodeStatus u) ∧
  (∀ v u : Word32, v &&& 0x1040 = u &&& 0x1040 → decodeFFCR v = decodeFFCR u) ∧
  (∀ v : Word32, decodeStatus v = ⟨v.getLsbD 0, v.getLsbD 1, v.getLsbD 2, v.getLsbD 4⟩ ∧
    decodeFFCR v = ⟨v.getLsbD 6, v.getLsbD 12⟩)

/-- R88, R89: only the sentinel reads as no word, and a byte count is four times the word count, exactly. -/
def Obligations.DrainedWordsAndByteCountsExact : Prop :=
  (∀ v : Word32, decodeRRD v = if v = 0xFFFFFFFF then none else some v) ∧
  (∀ n : Word32, (wordsToBytes n).toNat = 4 * n.toNat)

/-! ### The controller commands -/

/-- R131, R152: SET_MODE, all its forms and all its ends; mode 11 and a reserved bit are illegal. -/
def Obligations.SetModeWritesModeField : Prop :=
  (∀ (arg : BitVec 8) data, 3 ≤ arg.toNat → ∃ e, decode ⟨0x01#8 ++ arg, data⟩ = .illegal e) ∧
  ∀ mm : Bits2, mm ≠ 0b11 →
    (∀ data, decode ⟨0x0100 ||| mm.setWidth 16, data⟩ = .legal (.setMode mm)) ∧
    RefusedWhenLatched (.setMode mm) ∧ ReadFailureEnds (.setMode mm) .MODE 0x028 ∧
    ∀ s : State, s.C.fault = .noFault → firstOk s →
      let v := s.readValue .MODE
      let w := (v &&& 0xFFFFFFFC) ||| mm.setWidth 32
      let took := s.env.advance.next.took
      (secondOk s → exec (.setMode mm) s = .next (ended s
        (if s.C.phase = .disabled then { s.C with cfgMode := mm, modeSet := true, readyLast := false }
         else { s.C with cfgMode := mm, lifecycleOk := false, readyLast := false })
        { s.dev with modeW := some w }
        [readAt s .MODE 0x028 (some v), writeAt s .MODE 0x028 w true true] (.ok .unit))) ∧
      (¬ secondOk s → exec (.setMode mm) s = .next (ended s { s.C with fault := .transport .MODE .W }
        (if took then { s.dev with modeW := some w } else s.dev)
        [readAt s .MODE 0x028 (some v), writeAt s .MODE 0x028 w false took] (.err (.transportError .MODE .W))))

/-- R132, R153: ENABLE_CAPTURE, all its ends. -/
def Obligations.EnableCaptureArms : Prop :=
  ControlWriteCommand .enableCapture 0x0200 1 fun c =>
    if c.phase = .disabled then
      { c with phase := .armed, sofReq := false, drainedWords := 0, readyLast := false,
               lifecycleOk := if c.modeSet then c.lifecycleOk else false }
    else { c with readyLast := false }

/-- R133, R154, R162: DISABLE_CAPTURE, all its ends. -/
def Obligations.DisableCaptureEndsSession : Prop :=
  ControlWriteCommand .disableCapture 0x0300 0 fun c =>
    if c.phase = .disabled then { c with readyLast := false }
    else { c with phase := .disabled, modeSet := false, sofReq := false, readyLast := false, drainedWords := 0,
                  lifecycleOk := if c.phase = .drained then c.lifecycleOk else false }

/-- R134, R155: READ_ONE, all its ends. -/
def Obligations.ReadOneDrains : Prop :=
  (∀ data, decode ⟨0x0400, data⟩ = .legal .readOne) ∧ RefusedWhenLatched .readOne ∧ ReadFailureEnds .readOne .RRD 0x010 ∧
  ∀ s : State, s.C.fault = .noFault → firstOk s →
    let v := s.readValue .RRD
    let es := [readAt s .RRD 0x010 (some v)]
    let c := { s.C with readyLast := false }
    if v = 0xFFFFFFFF then
      exec .readOne s = .next (ended s
        (if s.C.phase = .stopping ∧ s.C.readyLast = true then { c with phase := .drained } else c)
        s.dev es (.ok (.optWord none)))
    else if s.C.phase = .stopping then
      if s.C.drainedWords + 1 > s.params.drainLimit then
        exec .readOne s = .next (ended s
          { c with drainedWords := s.C.drainedWords + 1, fault := .protocol .drainLimit } s.dev es
          (.err (.protocolViolation .drainLimit)))
      else
        exec .readOne s = .next (ended s { c with drainedWords := s.C.drainedWords + 1 } s.dev es
          (.ok (.optWord (some v))))
    else if s.C.phase = .drained then
      exec .readOne s = .next (ended s { c with fault := .protocol .dataAfterDrained } s.dev es
        (.err (.protocolViolation .dataAfterDrained)))
    else exec .readOne s = .next (ended s c s.dev es (.ok (.optWord (some v))))

/-- R135, R156: IS_FULL, all its ends. -/
def Obligations.IsFullReportsBitZero : Prop :=
  SingleReadCommand .isFull 0x0500 .STS 0x00C (fun v => .bool (v.getLsbD 0)) fun v c =>
    { c with phase := if c.phase = .armed ∧ v.getLsbD 0 = true then .full else c.phase, readyLast := false }

/-- R136, R158: IS_EMPTY, all its ends. -/
def Obligations.IsEmptyReportsBitFour : Prop :=
  SingleReadCommand .isEmpty 0x0600 .STS 0x00C (fun v => .bool (v.getLsbD 4)) fun _ c => { c with readyLast := false }

/-- R137, R157: IS_READY, all its ends. -/
def Obligations.IsReadyReportsBitTwo : Prop :=
  SingleReadCommand .isReady 0x0700 .STS 0x00C (fun v => .bool (v.getLsbD 2)) fun v c =>
    { c with readyLast := if c.phase = .stopping then v.getLsbD 2 else false }

/-- R138, R158: IS_TRIGGERED, all its ends; the mode plays no part. -/
def Obligations.IsTriggeredReportsBitOne : Prop :=
  SingleReadCommand .isTriggered 0x0800 .STS 0x00C (fun v => .bool (v.getLsbD 1)) fun _ c =>
    { c with readyLast := false }

/-- 41_controller_ops.md R139 with 42_lifecycle_fsm.md R158: FILL_LEVEL, all its ends. The second clause, 0 while capture
is disabled (R68), is about a device that obeys the laws (log entry 2), and before any write of Control took effect it
takes capture to be disabled, which is the launch premise R252 and not shown by the block (log entry 15). -/
def Obligations.FillLevelCountsBytes : Prop :=
  SingleReadCommand .fillLevel 0x0900 .CFILL 0x030 (fun v => .bytes (BitVec.ofNat 34 (4 * v.toNat)))
    (fun _ c => { c with readyLast := false }) ∧
  ∀ s : State, s.dev.lawful = true → s.dev.captureEnabled = false → s.readValue .CFILL = 0

/-- R140, R158: FIFO_SIZE, all its ends; always four times RSZ_WORDS (R67, on a device that obeys the laws). -/
def Obligations.FifoSizeCountsBytes : Prop :=
  SingleReadCommand .fifoSize 0x0A00 .SIZE 0x004 (fun v => .bytes (BitVec.ofNat 34 (4 * v.toNat)))
    (fun _ c => { c with readyLast := false }) ∧
  ∀ s : State, s.dev.lawful = true → s.readValue .SIZE = s.params.rszWords

/-- R141, R159: REQUEST_STOP_ON_FLUSH, both forms and all its ends; a reserved bit is illegal. -/
def Obligations.RequestStopOnFlushSetsBitTwelve : Prop :=
  (∀ (arg : BitVec 8) data, 2 ≤ arg.toNat → decode ⟨0x0B#8 ++ arg, data⟩ = .illegal .reservedBits) ∧
  ∀ b : Bool,
    (∀ data, decode ⟨if b then 0x0B01 else 0x0B00, data⟩ = .legal (.requestStopOnFlush b)) ∧
    RefusedWhenLatched (.requestStopOnFlush b) ∧ ReadFailureEnds (.requestStopOnFlush b) .FFCR 0x304 ∧
    ∀ s : State, s.C.fault = .noFault → firstOk s →
      let v := s.readValue .FFCR
      let w := (v &&& 0xFFFFEFBF) ||| (if b then 0x00001000 else 0)
      let took := s.env.advance.next.took
      (secondOk s → exec (.requestStopOnFlush b) s = .next (ended s
        { s.C with
          readyLast := false
          sofReq := if s.C.phase = .armed ∨ s.C.phase = .full then b else s.C.sofReq
          lifecycleOk := if s.C.phase = .stopping ∧ b = false then false else s.C.lifecycleOk }
        { s.dev with ffcrW := some w }
        [readAt s .FFCR 0x304 (some v), writeAt s .FFCR 0x304 w true true] (.ok .unit))) ∧
      (¬ secondOk s → exec (.requestStopOnFlush b) s = .next (ended s { s.C with fault := .transport .FFCR .W }
        (if took then { s.dev with ffcrW := some w } else s.dev)
        [readAt s .FFCR 0x304 (some v), writeAt s .FFCR 0x304 w false took] (.err (.transportError .FFCR .W))))

/-- R142, R160, R161: TRIGGER_MANUAL_FLUSH, all its ends. -/
def Obligations.TriggerManualFlushChecksThenFlushes : Prop :=
  (∀ data, decode ⟨0x0C00, data⟩ = .legal .triggerManualFlush) ∧ RefusedWhenLatched .triggerManualFlush ∧
  ReadFailureEnds .triggerManualFlush .FFCR 0x304 ∧
  ∀ s : State, s.C.fault = .noFault → firstOk s →
    let v := s.readValue .FFCR
    let w := v ||| 0x00000040
    let took := s.env.advance.next.took
    let tracked := s.C.phase = .armed ∨ s.C.phase = .full
    if tracked ∧ s.C.sofReq = true ∧ v.getLsbD 12 = false then
      exec .triggerManualFlush s = .next (ended s { s.C with fault := .protocol .sofNotObserved } s.dev
        [readAt s .FFCR 0x304 (some v)] (.err (.protocolViolation .sofNotObserved)))
    else
      (secondOk s → exec .triggerManualFlush s = .next (ended s
        (if tracked then
          if s.C.sofReq = true then { s.C with phase := .stopping, readyLast := false, drainedWords := 0 }
          else { s.C with lifecycleOk := false, readyLast := false }
         else { s.C with readyLast := false })
        { s.dev with ffcrW := some w }
        [readAt s .FFCR 0x304 (some v), writeAt s .FFCR 0x304 w true true] (.ok .unit))) ∧
      (¬ secondOk s → exec .triggerManualFlush s = .next (ended s { s.C with fault := .transport .FFCR .W }
        (if took then { s.dev with ffcrW := some w } else s.dev)
        [readAt s .FFCR 0x304 (some v), writeAt s .FFCR 0x304 w false took] (.err (.transportError .FFCR .W))))

/-! ### The demultiplexer and the block -/

/-- R181: DEMUX_INIT, every tag: its word, the word with bit 7 set, and its effect. -/
def Obligations.DemuxInitSeedsTag : Prop :=
  ∀ t : Tag, (∀ data, decode ⟨0x2000 ||| t.setWidth 16, data⟩ = .legal (.demuxInit t) ∧
      decode ⟨0x2080 ||| t.setWidth 16, data⟩ = .illegal .reservedBits) ∧
    ∀ s : State, exec (.demuxInit t) s =
      .next { s with X := { tag := t, fwords := [] }, port := { s.port with rsp := some (.ok .unit) } }

/-- R182: DEMUX_FEED, every word: held until the fourth word of a frame, which is then parsed (R185, the frame layout the
spec supplies). -/
def Obligations.DemuxFeedHoldsOrParses : Prop :=
  ∀ w : Word32, decode ⟨0x2100, w⟩ = .legal (.demuxFeed w) ∧
    (∀ arg : BitVec 8, arg ≠ 0 → decode ⟨0x21#8 ++ arg, w⟩ = .illegal .reservedBits) ∧
    ∀ s : State,
      (s.X.fwords.length ≠ 3 → exec (.demuxFeed w) s = .next { s with
        X := { s.X with fwords := s.X.fwords ++ [w] }, port := { s.port with rsp := some (.ok (.pairs [])) } }) ∧
      (s.X.fwords.length = 3 → exec (.demuxFeed w) s = .next { s with
        X := { tag := (parseFrame s.X.tag (s.X.fwords ++ [w])).tag, fwords := [] }
        port := { s.port with rsp := some (.ok (.pairs (parseFrame s.X.tag (s.X.fwords ++ [w])).out)) } })

/-- R183: DEMUX_STATUS. -/
def Obligations.DemuxStatusReadsOut : Prop :=
  (∀ data, decode ⟨0x2200, data⟩ = .legal .demuxStatus) ∧
  (∀ (arg : BitVec 8) data, arg ≠ 0 → decode ⟨0x22#8 ++ arg, data⟩ = .illegal .reservedBits) ∧
  ∀ s : State, exec .demuxStatus s = .next { s with
    port := { s.port with rsp := some (.ok (.demuxStatus s.X.tag s.X.fwords.length)) } }

/-- R200: GET_STATE: every element of `C` is read out, nothing is written, no latched fault refuses it. -/
def Obligations.GetStateReadsOut : Prop :=
  (∀ data, decode ⟨0x3000, data⟩ = .legal .getState) ∧
  (∀ (arg : BitVec 8) data, arg ≠ 0 → decode ⟨0x30#8 ++ arg, data⟩ = .illegal .reservedBits) ∧
  ∀ s : State, exec .getState s = .next { s with
    port := { s.port with rsp := some (.ok (.snapshot
      { phase := match s.C.phase with
          | .disabled => 0
          | .armed => 1
          | .full => 2
          | .stopping => 3
          | .drained => 4
        modeSet := s.C.modeSet, cfgMode := s.C.cfgMode, sofReq := s.C.sofReq, readyLast := s.C.readyLast
        drainedWords := s.C.drainedWords, lifecycleOk := s.C.lifecycleOk, fault := s.C.fault })) } }

/-! ### Errors and the fault latch -/

/-- R224: a latched fault refuses every legal controller command, without a transaction or a change of state, and none
of the other commands: they answer Ok in every state, and GET_STATE shows the fault. -/
def Obligations.LatchedFaultRefusesControllerOnly : Prop :=
  (∀ i : Instr, i.execUnit = .controller → i.wellFormed = true → RefusedWhenLatched i) ∧
  (∀ (i : Instr) (s : State), i.execUnit ≠ .controller → ∃ t v, exec i s = .next t ∧ t.port.rsp = some (.ok v)) ∧
  (∀ (s t : State), exec .getState s = .next t → ∃ r, t.port.rsp = some (.ok (.snapshot r)) ∧ r.fault = s.C.fault)

/-- R225: no command and no host line clears a latched fault, or replaces it by another; only the reset input does. -/
def Obligations.LatchedFaultStays : Prop :=
  ∀ s t : State, s.C.fault ≠ .noFault → s.resetIn = false → step s = .next t → t.C = s.C

/-- R27: once false, `lifecycle_ok` stays false until reset: no step sets it true but the reset input. -/
def Obligations.LifecycleOkIsSticky : Prop :=
  ∀ s t : State, s.resetIn = false → step s = .next t → t.C.lifecycleOk = true → s.C.lifecycleOk = true

/-- 60_exceptions.md section 2 (R228, derived there): a command that answers an error leaves the phase, the demultiplexer
and every element of `C` as it found them but for the fault, and, after a PROTOCOL_VIOLATION of READ_ONE, `ready_last`
(false) and for DRAIN_LIMIT the counter (one more). -/
def Obligations.ErrorsArePrecise : Prop :=
  ∀ (i : Instr) (s t : State) (e : CmdError), exec i s = .next t → t.port.rsp = some (.err e) →
    t.X = s.X ∧ t.C.phase = s.C.phase ∧
    match e with
    | .illegalCommand _ => t.C = s.C ∧ t.bus = s.bus
    | .sessionAborted f => t.C = s.C ∧ t.bus = s.bus ∧ f = s.C.fault
    | .transportError reg dir => t.C = { s.C with fault := .transport reg dir }
    | .protocolViolation .sofNotObserved => t.C = { s.C with fault := .protocol .sofNotObserved }
    | .protocolViolation .dataAfterDrained =>
      t.C = { s.C with fault := .protocol .dataAfterDrained, readyLast := false }
    | .protocolViolation .drainLimit =>
      t.C = { s.C with fault := .protocol .drainLimit, readyLast := false, drainedWords := s.C.drainedWords + 1 }

/-- R250, R251: reset sets `C`, `X` and RSP to the values of R34, issues no transaction, and leaves the device, and all
else, as they are. (That the reset input comes before a waiting command and is consumed is the model's, log entry 7.) -/
def Obligations.ResetSetsBlockOnly : Prop :=
  ∀ s : State, s.resetIn = true →
    step s = .next { s with
      C := { phase := .disabled, modeSet := false, cfgMode := 0b00, sofReq := false, readyLast := false,
             drainedWords := 0, lifecycleOk := true, fault := .noFault }
      X := { tag := 0, fwords := [] }
      port := { s.port with rsp := none }
      resetIn := false }

/-- R34: the block after reset. -/
def Obligations.BlockStartsReset : Prop :=
  State.reset.C = { phase := .disabled, modeSet := false, cfgMode := 0b00, sofReq := false, readyLast := false,
                    drainedWords := 0, lifecycleOk := true, fault := .noFault } ∧
  State.reset.X = { tag := 0, fwords := [] } ∧ State.reset.port.rsp = none

/-! ### The lifecycle -/

/-- R151: every change of phase by a command is one of the table's, with the conditions the table gives it. -/
def Obligations.PhaseChangesAreTheTable : Prop :=
  ∀ (i : Instr) (s t : State), exec i s = .next t → t.C.phase ≠ s.C.phase →
    (i = .enableCapture ∧ s.C.phase = .disabled ∧ t.C.phase = .armed) ∨
    (i = .isFull ∧ s.C.phase = .armed ∧ t.C.phase = .full ∧ (s.readValue .STS).getLsbD 0 = true) ∨
    (i = .triggerManualFlush ∧ (s.C.phase = .armed ∨ s.C.phase = .full) ∧ t.C.phase = .stopping ∧
      s.C.sofReq = true ∧ (s.readValue .FFCR).getLsbD 12 = true) ∨
    (i = .readOne ∧ s.C.phase = .stopping ∧ t.C.phase = .drained ∧ s.C.readyLast = true ∧
      s.readValue .RRD = 0xFFFFFFFF) ∨
    (i = .disableCapture ∧ t.C.phase = .disabled)

/-- 42_lifecycle_fsm.md section 4 (R165, derived there): a command that enters Stopping is a TRIGGER_MANUAL_FLUSH in
Armed or Full with the request made; its own load saw bit 12 set and its flush write succeeded. -/
def Obligations.StoppingNeedsStopSequence : Prop :=
  ∀ (i : Instr) (s t : State), exec i s = .next t → s.C.phase ≠ .stopping → t.C.phase = .stopping →
    i = .triggerManualFlush ∧ (s.C.phase = .armed ∨ s.C.phase = .full) ∧ s.C.sofReq = true ∧
    ∃ v w, v.getLsbD 12 = true ∧ w = v ||| 0x40 ∧
      t.bus = s.bus ++ [readAt s .FFCR 0x304 (some v), writeAt s .FFCR 0x304 w true true]

/-- 10_state.md section 2 (R25) with R228: when a controller command ends with no fault latched, `ready_last` is true
exactly when it was an IS_READY in Stopping that answered true; the other commands leave it alone. -/
def Obligations.ReadyLastMeansReadyJustSeen : Prop :=
  ∀ (i : Instr) (s t : State), i.wellFormed = true → exec i s = .next t → t.C.fault = .noFault →
    (i.execUnit = .controller →
      (t.C.readyLast = true ↔ i = .isReady ∧ s.C.phase = .stopping ∧ t.port.rsp = some (.ok (.bool true)))) ∧
    (i.execUnit ≠ .controller → t.C.readyLast = s.C.readyLast)

/-- R26, R23, R30, R204: the drain counter's bound, the legal configured mode, the incomplete frame's length and the
capacity of the host's buffer B are kept by every step, whatever the host's policy for a full B is (log entry 19). -/
def Obligations.StepKeepsStateInvariant : Prop :=
  ∀ s t : State, s.Inv → step s = .next t → t.Inv

/-- 42_lifecycle_fsm.md section 4 (R164, derived there): a ready observation that still counts is witnessed by the bus
history; every step keeps that. -/
def Obligations.StepKeepsReadyWitness : Prop :=
  ∀ s t : State, readyWitnessed s → step s = .next t → readyWitnessed t

/-- 42_lifecycle_fsm.md section 4 (R164, derived there): the READ_ONE that concludes the drain completes the premise of
the drain contract (R74): a ready observation in Stopping, then at once the sentinel. Once met, the premise stays met by
every command but ENABLE_CAPTURE. -/
def Obligations.DrainConclusionMeetsContractPremise : Prop :=
  (∀ (i : Instr) (s t : State), readyWitnessed s → exec i s = .next t → s.C.phase ≠ .drained → t.C.phase = .drained →
    drainWatch t.bus = .exhausted) ∧
  (∀ (i : Instr) (s t : State), drainWatch s.bus = .exhausted → exec i s = .next t → i ≠ .enableCapture →
    drainWatch t.bus = .exhausted)

/-- 20_memory.md section 7 (R74, derived there) and R164: under the drain contract, once its premise has been met no
READ_ONE answers a word or raises DATA_AFTER_DRAINED or DRAIN_LIMIT. -/
def Obligations.ContractExcludesLaterWords : Prop :=
  ∀ s t : State, drainWatch s.bus = .exhausted → DrainContract t.bus = true → exec .readOne s = .next t →
    (∀ w, t.port.rsp ≠ some (.ok (.optWord (some w)))) ∧ (∀ k, t.port.rsp ≠ some (.err (.protocolViolation k)))

/-- 20_memory.md section 7 (R70, derived there) and R160: on a device that obeys the laws a request that counts is on
record in FFCR; every step keeps that. -/
def Obligations.StepKeepsRequestOnRecord : Prop :=
  ∀ s t : State, requestOnRecord s → step s = .next t → requestOnRecord t

/-- The three invariants hold after reset. -/
def Obligations.ResetMeetsInvariants : Prop :=
  State.reset.Inv ∧ readyWitnessed State.reset ∧ requestOnRecord State.reset

/-- 42_lifecycle_fsm.md section 3 (R160 "a successful request is always observed, so this fault means a device or
transport fault"): with the request on record, TRIGGER_MANUAL_FLUSH never raises SOF_NOT_OBSERVED on a lawful device. -/
def Obligations.LawfulDeviceObservesRequest : Prop :=
  ∀ s t : State, s.dev.lawful = true → requestOnRecord s → exec .triggerManualFlush s = .next t →
    t.port.rsp ≠ some (.err (.protocolViolation .sofNotObserved))

/-- R97 and 42_lifecycle_fsm.md R170: the stop sequence in Armed or Full, on a lawful device whose four transactions
complete, enters Stopping with the counter at 0 and `lifecycle_ok` as it was. -/
def Obligations.StopSequenceEntersStopping : Prop :=
  ∀ s t : State, s.dev.lawful = true → s.C.fault = .noFault → s.C.phase = .armed ∨ s.C.phase = .full →
    firstOk s → secondOk s → s.env.advance.advance.next.ok = true → s.env.advance.advance.advance.next.ok = true →
    exec (.requestStopOnFlush true) s = .next t →
    ∃ u, exec .triggerManualFlush t = .next u ∧ u.C.phase = .stopping ∧ u.C.drainedWords = 0 ∧
      u.C.lifecycleOk = s.C.lifecycleOk ∧ u.C.fault = .noFault ∧ u.port.rsp = some (.ok .unit)

/-- 42_lifecycle_fsm.md section 4 (R168): a session ends well by the DISABLE_CAPTURE of a drained session whose lifecycle
was kept, and a command ends no session well otherwise. -/
def Obligations.SessionEndsWellFromDrained : Prop :=
  (∀ s : State, s.C.phase = .drained → s.C.fault = .noFault → s.C.lifecycleOk = true → firstOk s →
    ∃ t, exec .disableCapture s = .next t ∧ sessionEndsWell .disableCapture s t) ∧
  (∀ (i : Instr) (s t : State), exec i s = .next t → sessionEndsWell i s t →
    s.C.lifecycleOk = true ∧ s.C.fault = .noFault)

/-- 42_lifecycle_fsm.md section 4 (R166): a word that joins the drained stream is the word read, is counted, and the
count is at most DRAIN_LIMIT_WORDS. -/
def Obligations.DrainedStreamIsBounded : Prop :=
  ∀ (i : Instr) (s t : State) (w : Word32), exec i s = .next t → drainedWord i s t = some w →
    w = s.readValue .RRD ∧ w ≠ 0xFFFFFFFF ∧ t.C.drainedWords = s.C.drainedWords + 1 ∧
    t.C.drainedWords ≤ t.params.drainLimit

/-! ### The bus and the device laws -/

/-- 20_memory.md section 6 and 70_reset_and_hazards.md R265: a command issues at most two transactions, after those
before it, each at the address of a register of the map; the other units issue none. -/
def Obligations.TransactionsAreFewAndMapped : Prop :=
  ∀ (i : Instr) (s t : State), exec i s = .next t →
    ∃ es : List BusEvent, t.bus = s.bus ++ es ∧ es.length ≤ 2 ∧ (∀ e ∈ es, e.addressed s.params = true) ∧
      (i.execUnit ≠ .controller → es = [])

/-- R63, R123: when a command writes after a read, the two are adjacent, to one register, and the word written is
computed from the word that read returned. -/
def Obligations.ReadModifyWriteIsAdjacent : Prop :=
  ∀ (i : Instr) (s t : State) (e₁ e₂ : BusEvent), exec i s = .next t → t.bus = s.bus ++ [e₁, e₂] →
    ∃ reg v ok took, reg ≠ .RRD ∧ e₁ = .read reg (s.addrOf reg) s.C.phase (some v) ∧
      e₂ = .write reg (s.addrOf reg)
        (match i with
          | .setMode mm => (v &&& 0xFFFFFFFC) ||| mm.setWidth 32
          | .requestStopOnFlush b => (v &&& 0xFFFFEFBF) ||| (if b then 0x00001000 else 0)
          | _ => v ||| 0x40) ok took

/-- 20_memory.md section 3 (R54): with a well-formed base every address the block forms is 4-byte aligned and fits the
transport, and no step changes the parameters; the implementation's parameters are well formed. -/
def Obligations.AddressesAreAligned : Prop :=
  State.reset.params.wf ∧
  (∀ (s : State) (reg : RegName), s.params.wf → s.addrOf reg % 4 = 0 ∧ s.addrOf reg + 4 ≤ 2 ^ s.params.addrW) ∧
  (∀ s t : State, step s = .next t → t.params = s.params)

/-- R57: the only FFCR write that carries bit 6 = 1 is the store of TRIGGER_MANUAL_FLUSH. -/
def Obligations.OnlyTriggerRequestsFlush : Prop :=
  ∀ (i : Instr) (s t : State) (es : List BusEvent), exec i s = .next t → t.bus = s.bus ++ es →
    (∃ e ∈ es, e.requestsFlush = true) → i = .triggerManualFlush

/-- R56: issuing ENABLE_CAPTURE, or DISABLE_CAPTURE, twice in a row leaves the device and the controller as issuing it
once. -/
def Obligations.CaptureSwitchIsIdempotent : Prop :=
  ∀ (i : Instr) (s t u : State), i = .enableCapture ∨ i = .disableCapture → s.C.fault = .noFault →
    firstOk s → secondOk s → exec i s = .next t → exec i t = .next u →
    u.dev = t.dev ∧ u.C = t.C ∧ t.dev.captureEnabled = decide (i = .enableCapture)

/-- 20_memory.md section 7 (R69, R70, derived there): on a lawful device a SET_MODE that completed is read back in Mode
bits [1:0], and a REQUEST_STOP_ON_FLUSH that completed in FFCR bit 12, whatever the device draws. -/
def Obligations.WrittenFieldsReadBack : Prop :=
  (∀ (s t : State) (mm : Bits2), s.dev.lawful = true → exec (.setMode mm) s = .next t → t.port.rsp = some (.ok .unit) →
    (t.readValue .MODE).extractLsb' 0 2 = mm) ∧
  (∀ (s t : State) (b : Bool), s.dev.lawful = true → exec (.requestStopOnFlush b) s = .next t →
    t.port.rsp = some (.ok .unit) → (t.readValue .FFCR).getLsbD 12 = b)

/-! ### Frames and isolation -/

/-- 10_state.md section 7 (R39): what a controller command may write is the controller, the bus side and the response;
what the other commands may write is `X` and the response; nothing else changes. -/
def Obligations.CommandsKeepTheirFrame : Prop :=
  ∀ (i : Instr) (s t : State), exec i s = .next t →
    t.params = s.params ∧ t.host = s.host ∧ t.resetIn = s.resetIn ∧ t.port.pending = s.port.pending ∧
    t.dev.lawful = s.dev.lawful ∧
    (i.execUnit = .controller → t.X = s.X) ∧
    (i.execUnit ≠ .controller → t.C = s.C ∧ t.dev = s.dev ∧ t.env = s.env ∧ t.bus = s.bus) ∧
    (i = .demuxStatus ∨ i = .getState → t.X = s.X) ∧
    ((∀ mm, i ≠ .setMode mm) → t.C.cfgMode = s.C.cfgMode ∧ t.dev.modeW = s.dev.modeW) ∧
    (i ≠ .enableCapture ∧ i ≠ .disableCapture → t.dev.ctlW = s.dev.ctlW) ∧
    ((∀ b, i ≠ .requestStopOnFlush b) → i ≠ .triggerManualFlush → t.dev.ffcrW = s.dev.ffcrW)

/-- R180: the demultiplexer reads no controller state and the controller no demultiplexer state: the other unit's record
has no influence on what a command answers or leaves in its own. -/
def Obligations.UnitsDoNotInterfere : Prop :=
  (∀ (i : Instr) (s t u : State) (c : Controller), i.execUnit = .demultiplexer → exec i s = .next t →
    exec i { s with C := c } = .next u → u.X = t.X ∧ u.port = t.port ∧ u.C = c) ∧
  (∀ (i : Instr) (s t u : State) (x : Demux), i.execUnit = .controller → exec i s = .next t →
    exec i { s with X := x } = .next u → u = { t with X := x })

/-! ### The frame demultiplexer -/

/-- 43_frame_demux.md section 2 (R185 to R190, which the spec marks as general knowledge; log entry 17): a frame built
from a description, tag changes and payload bytes, parses to exactly the pairs the description stands for, and leaves the
tag it selects. -/
def Obligations.FrameRoundTrip : Prop :=
  ∀ (d : FrameDesc) (t : Tag), d.pairs.length = 7 →
    parseFrame t d.words = { out := (d.meaning t).1, tag := (d.meaning t).2 }

/-- 43_frame_demux.md section 2 (general knowledge, log entry 17): every four words are the words of a description, so
the round trip leaves no frame out. -/
def Obligations.EveryFrameIsDescribed : Prop :=
  ∀ w₀ w₁ w₂ w₃ : Word32, ∃ d : FrameDesc, d.pairs.length = 7 ∧ d.words = [w₀, w₁, w₂, w₃]

/-- 43_frame_demux.md section 3 (R191, R192; the layout is general knowledge, log entry 17): feeding the words of a
stream of frames, from a frame boundary, outputs the frames' pairs in order and carries the tag from frame to frame. -/
def Obligations.StreamRoundTrip : Prop :=
  ∀ (ds : List FrameDesc) (s : State), (∀ d ∈ ds, d.pairs.length = 7) → s.X.fwords = [] →
    (feedAll (ds.flatMap FrameDesc.words) s).2 = (streamMeaning ds s.X.tag).1 ∧
    (feedAll (ds.flatMap FrameDesc.words) s).1.X = { tag := (streamMeaning ds s.X.tag).2, fwords := [] }

/-- 43_frame_demux.md section 3 (R196, derived there): a frame outputs 7 pairs and one more for each data byte at an even
position, so 7 to 15. -/
def Obligations.FrameOutputIsBounded : Prop :=
  ∀ (t : Tag) (w₀ w₁ w₂ w₃ : Word32),
    (parseFrame t [w₀, w₁, w₂, w₃]).out.length =
      7 + ([w₀, w₁, w₂, w₃].flatMap fun w => [w.getLsbD 0, w.getLsbD 16]).count false ∧
    7 ≤ (parseFrame t [w₀, w₁, w₂, w₃]).out.length ∧ (parseFrame t [w₀, w₁, w₂, w₃]).out.length ≤ 15

/-! ### The host -/

/-- R201: what the host lines PUSH, GOTO, IF, END and FEED B do. A step of the host leaves `C`, `X`, the device, the
environment, the bus and the parameters alone. PUSH, GOTO, IF and END change the host's own record, as the table says, and
nothing else, so the port and the reset input stay too; a script that has stopped does nothing more. PUSH with B at its
capacity, RSZ_WORDS + 32 words (R204), is host policy: the script goes on at a line, B within its capacity, or it stops
(log entry 19). FEED B issues one DEMUX_FEED for each word of B in order and appends the pairs to P, in one step and three
for each word (log entry 6), leaving `last` as it was (log entry 8). -/
def Obligations.HostLinesActOnHostRecord : Prop :=
  (∀ s t : State, s.resetIn = false → s.port.pending = none → step s = .next t →
    t.C = s.C ∧ t.X = s.X ∧ t.dev = s.dev ∧ t.env = s.env ∧ t.bus = s.bus ∧ t.params = s.params) ∧
  (∀ (s : State) (w : Word32), runsLine s .push → s.host.last = some (.ok (.optWord (some w))) →
    s.host.buf.length < s.params.rszWords.toNat + 32 →
    step s = .next { s with host := { s.host with buf := s.host.buf ++ [w], pos := s.host.pos + 1 } }) ∧
  (∀ (s : State) (w : Word32), runsLine s .push → s.host.last = some (.ok (.optWord (some w))) →
    s.params.rszWords.toNat + 32 ≤ s.host.buf.length →
    (∀ b p, s.host.nextFull = .goOn b p → step s = .next { s with
      host := { s.host.afterFull with buf := b.take (s.params.rszWords.toNat + 32), pos := p } }) ∧
    (s.host.nextFull = .stop → step s = .next { s with host := { s.host.afterFull with status := .ended } })) ∧
  (∀ (s : State) (name : Label) (p : Nat), runsLine s (.goto name) → namesLine s.host.script name p →
    step s = .next { s with host := { s.host with pos := p } }) ∧
  (∀ (s : State) (c : Cond) (name : Label) (p : Nat), runsLine s (.ifGoto c name) → lastMeets s.host c →
    namesLine s.host.script name p → step s = .next { s with host := { s.host.afterCond c with pos := p } }) ∧
  (∀ (s : State) (c : Cond) (name : Label), runsLine s (.ifGoto c name) → ¬ lastMeets s.host c →
    step s = .next { s with host := { s.host.afterCond c with pos := s.host.pos + 1 } }) ∧
  (∀ s : State, runsLine s .endScript → step s = .next { s with host := { s.host with status := .ended } }) ∧
  (∀ s : State, s.resetIn = false → s.port.pending = none → s.host.awaiting = .idle → s.host.status ≠ .running →
    step s = .next s) ∧
  (∀ s : State, runsLine s .feedB → ∃ t : State, Host.Core.run Sys2Proof.core (1 + 3 * s.host.buf.length) s = .next t ∧
    t.X = (feedAll s.host.buf s).1.X ∧ t.C = s.C ∧ t.bus = s.bus ∧ t.dev = s.dev ∧
    t.host = { s.host with pos := s.host.pos + 1, pairs := s.host.pairs ++ (feedAll s.host.buf s).2 })

/-- R201, R207: a command line is issued, executed and its response recorded in three steps, for every well-formed
command: the first step puts its words on the port, the second is exec of the command, and the third makes the block's
response `last`; the script stops exactly when that is an error the next line does not handle. -/
def Obligations.CommandLineRoundTrip : Prop :=
  ∀ (s t u : State) (i : Instr) (l : Option Label), s.resetIn = false → s.port.pending = none →
    s.host.awaiting = .idle → s.host.status = .running → s.host.feed = [] →
    s.host.script[s.host.pos]? = some ⟨l, .issue (encode i)⟩ → i.wellFormed = true →
    step s = .next t → step t = .next u →
    t.port.pending = some (encode i) ∧ t.C = s.C ∧ t.X = s.X ∧
    exec i { t with port := { pending := none, rsp := none } } = .next u ∧
    ∃ (x : State) (r : Response), u.port.rsp = some r ∧ step u = .next x ∧ x.host.last = some r ∧ x.port.rsp = none ∧
      x.host.pos = s.host.pos + 1 ∧ x.C = u.C ∧ x.X = u.X ∧
      ((∃ e, x.host.status = .aborted e) ↔
        (∃ e, r = .err e) ∧ handlesErr s.host.script (s.host.pos + 1) = false)
end

