-- ==== Sys2Proof/Laws/Commands.lean ====
section
/-! SUPPORT. What each controller command's body can do, said once: one equation per shape of body, with a case for each
transaction that completes or fails (spec/41_controller_ops.md R131 to R142). -/

namespace Sys2Proof.Machine

/-- A body that is one load and a pure end (R135 to R140). -/
theorem loadBody_eq (reg : RegName) (f : Word32 → RspValue) (g : Word32 → Controller → Controller) (s : State) :
    ((load reg s).andThen fun v t => .done (f v) (t.updateC (g v))) =
      if s.env.next.ok = true then
        .done (f (s.readValue reg)) ((afterRead reg (some (s.readValue reg)) s).updateC (g (s.readValue reg)))
      else .raised (.transportError reg .R) (latch (.transport reg .R) (afterRead reg none s)) := by
  cases h : s.env.next.ok
  · simp [load_raised reg s h]
  · simp [load_done reg s h]

/-- A body that is one store and a pure end (R132, R133). -/
theorem storeBody_eq (reg : RegName) (w : Word32) (g : Controller → Controller) (s : State) :
    ((store reg w s).andThen fun _ t => Result.done RspValue.unit (t.updateC g)) =
      if s.env.next.ok = true then .done .unit ((afterWrite reg w true true s).updateC g)
      else .raised (.transportError reg .W) (latch (.transport reg .W) (afterWrite reg w false s.env.next.took s)) := by
  cases h : s.env.next.ok
  · simp [store_raised reg w s h]
  · simp [store_done reg w s h]

/-- A body that is one RMW and a pure end (R131, R141). -/
theorem rmwBody_eq (reg : RegName) (f : Word32 → Word32) (g : Controller → Controller) (s : State) :
    ((rmw reg f s).andThen fun _ t => Result.done RspValue.unit (t.updateC g)) =
      if s.env.next.ok = true then
        if s.env.advance.next.ok = true then
          .done .unit ((afterWrite reg (f (s.readValue reg)) true true
            (afterRead reg (some (s.readValue reg)) s)).updateC g)
        else .raised (.transportError reg .W) (latch (.transport reg .W)
          (afterWrite reg (f (s.readValue reg)) false s.env.advance.next.took
            (afterRead reg (some (s.readValue reg)) s)))
      else .raised (.transportError reg .R) (latch (.transport reg .R) (afterRead reg none s)) := by
  cases h : s.env.next.ok
  · simp [rmw_readFails reg f s h]
  · rw [rmw_readDone reg f s h]
    cases h2 : s.env.advance.next.ok
    · rw [store_raised _ _ _ (by simpa using h2)]; simp
    · rw [store_done _ _ _ (by simpa using h2)]; simp

/-- Both ends of the body of R135. -/
theorem isFullBody_eq (s : State) :
    isFullBody s =
      if s.env.next.ok = true then
        .done (.bool (decodeStatus (s.readValue .STS)).full)
          ((afterRead .STS (some (s.readValue .STS)) s).updateC (lifecycleIsFull (decodeStatus (s.readValue .STS)).full))
      else .raised (.transportError .STS .R) (latch (.transport .STS .R) (afterRead .STS none s)) :=
  loadBody_eq .STS (fun v => .bool (decodeStatus v).full) (fun v => lifecycleIsFull (decodeStatus v).full) s

/-- Both ends of the body of R136. -/
theorem isEmptyBody_eq (s : State) :
    isEmptyBody s =
      if s.env.next.ok = true then
        .done (.bool (decodeStatus (s.readValue .STS)).empty)
          ((afterRead .STS (some (s.readValue .STS)) s).updateC (lifecycleQuery))
      else .raised (.transportError .STS .R) (latch (.transport .STS .R) (afterRead .STS none s)) :=
  loadBody_eq .STS (fun v => .bool (decodeStatus v).empty) (fun _ => lifecycleQuery) s

/-- Both ends of the body of R137. -/
theorem isReadyBody_eq (s : State) :
    isReadyBody s =
      if s.env.next.ok = true then
        .done (.bool (decodeStatus (s.readValue .STS)).ready)
          ((afterRead .STS (some (s.readValue .STS)) s).updateC (lifecycleIsReady (decodeStatus (s.readValue .STS)).ready))
      else .raised (.transportError .STS .R) (latch (.transport .STS .R) (afterRead .STS none s)) :=
  loadBody_eq .STS (fun v => .bool (decodeStatus v).ready) (fun v => lifecycleIsReady (decodeStatus v).ready) s

/-- Both ends of the body of R138. -/
theorem isTriggeredBody_eq (s : State) :
    isTriggeredBody s =
      if s.env.next.ok = true then
        .done (.bool (decodeStatus (s.readValue .STS)).trigd)
          ((afterRead .STS (some (s.readValue .STS)) s).updateC (lifecycleQuery))
      else .raised (.transportError .STS .R) (latch (.transport .STS .R) (afterRead .STS none s)) :=
  loadBody_eq .STS (fun v => .bool (decodeStatus v).trigd) (fun _ => lifecycleQuery) s

/-- Both ends of the body of R139. -/
theorem fillLevelBody_eq (s : State) :
    fillLevelBody s =
      if s.env.next.ok = true then
        .done (.bytes (wordsToBytes (s.readValue .CFILL)))
          ((afterRead .CFILL (some (s.readValue .CFILL)) s).updateC (lifecycleQuery))
      else .raised (.transportError .CFILL .R) (latch (.transport .CFILL .R) (afterRead .CFILL none s)) :=
  loadBody_eq .CFILL (fun v => .bytes (wordsToBytes v)) (fun _ => lifecycleQuery) s

/-- Both ends of the body of R140. -/
theorem fifoSizeBody_eq (s : State) :
    fifoSizeBody s =
      if s.env.next.ok = true then
        .done (.bytes (wordsToBytes (s.readValue .SIZE)))
          ((afterRead .SIZE (some (s.readValue .SIZE)) s).updateC (lifecycleQuery))
      else .raised (.transportError .SIZE .R) (latch (.transport .SIZE .R) (afterRead .SIZE none s)) :=
  loadBody_eq .SIZE (fun v => .bytes (wordsToBytes v)) (fun _ => lifecycleQuery) s

/-- Both ends of the body of R132. -/
theorem enableCaptureBody_eq (s : State) :
    enableCaptureBody s =
      if s.env.next.ok = true then .done .unit ((afterWrite .CTL (encodeControl true) true true s).updateC lifecycleEnable)
      else .raised (.transportError .CTL .W) (latch (.transport .CTL .W)
        (afterWrite .CTL (encodeControl true) false s.env.next.took s)) :=
  storeBody_eq .CTL (encodeControl true) lifecycleEnable s

/-- Both ends of the body of R133. -/
theorem disableCaptureBody_eq (s : State) :
    disableCaptureBody s =
      if s.env.next.ok = true then .done .unit ((afterWrite .CTL (encodeControl false) true true s).updateC lifecycleDisable)
      else .raised (.transportError .CTL .W) (latch (.transport .CTL .W)
        (afterWrite .CTL (encodeControl false) false s.env.next.took s)) :=
  storeBody_eq .CTL (encodeControl false) lifecycleDisable s

/-- The three ends of the body of R131. -/
theorem setModeBody_eq (mm : Bits2) (s : State) :
    setModeBody mm s =
      if s.env.next.ok = true then
        if s.env.advance.next.ok = true then
          .done .unit ((afterWrite .MODE (encodeMode (s.readValue .MODE) mm) true true
            (afterRead .MODE (some (s.readValue .MODE)) s)).updateC (lifecycleSetMode mm))
        else .raised (.transportError .MODE .W) (latch (.transport .MODE .W)
          (afterWrite .MODE (encodeMode (s.readValue .MODE) mm) false s.env.advance.next.took
            (afterRead .MODE (some (s.readValue .MODE)) s)))
      else .raised (.transportError .MODE .R) (latch (.transport .MODE .R) (afterRead .MODE none s)) :=
  rmwBody_eq .MODE (fun v => encodeMode v mm) (lifecycleSetMode mm) s

/-- The three ends of the body of R141. -/
theorem requestStopOnFlushBody_eq (b : Bool) (s : State) :
    requestStopOnFlushBody b s =
      if s.env.next.ok = true then
        if s.env.advance.next.ok = true then
          .done .unit ((afterWrite .FFCR (encodeFFCRsof (s.readValue .FFCR) b) true true
            (afterRead .FFCR (some (s.readValue .FFCR)) s)).updateC (lifecycleRequestStop b))
        else .raised (.transportError .FFCR .W) (latch (.transport .FFCR .W)
          (afterWrite .FFCR (encodeFFCRsof (s.readValue .FFCR) b) false s.env.advance.next.took
            (afterRead .FFCR (some (s.readValue .FFCR)) s)))
      else .raised (.transportError .FFCR .R) (latch (.transport .FFCR .R) (afterRead .FFCR none s)) :=
  rmwBody_eq .FFCR (fun v => encodeFFCRsof v b) (lifecycleRequestStop b) s

/-- READ_ONE's lifecycle update (R155), all its ends. -/
theorem lifecycleReadOne_eq (r : Option Word32) (s : State) :
    lifecycleReadOne r s =
      if s.C.phase = .stopping then
        if r = none then
          .done () (s.updateC fun c =>
            { c with readyLast := false, phase := if s.C.readyLast = true then .drained else .stopping })
        else if s.params.drainLimit < s.C.drainedWords + 1 then
          .raised (.protocolViolation .drainLimit) (s.updateC fun c =>
            { c with readyLast := false, drainedWords := s.C.drainedWords + 1, fault := .protocol .drainLimit })
        else .done () (s.updateC fun c => { c with readyLast := false, drainedWords := s.C.drainedWords + 1 })
      else if s.C.phase = .drained ∧ r ≠ none then
        .raised (.protocolViolation .dataAfterDrained) (s.updateC fun c =>
          { c with readyLast := false, fault := .protocol .dataAfterDrained })
      else .done () (s.updateC lifecycleQuery) := by
  rcases s with ⟨params, ⟨phase, modeSet, cfgMode, sofReq, readyLast, drainedWords, lifecycleOk, fault⟩, X, port, resetIn,
    dev, env, bus, host⟩
  cases phase <;> cases r <;> cases readyLast <;>
    simp [lifecycleReadOne, countDrainedWord, takeFault, State.updateC, lifecycleQuery]

/-- READ_ONE's body (R134), all its ends: the load, then the lifecycle update on the decoded word. -/
theorem readOneBody_eq (s : State) :
    readOneBody s =
      if s.env.next.ok = true then
        (lifecycleReadOne (decodeRRD (s.readValue .RRD)) (afterRead .RRD (some (s.readValue .RRD)) s)).andThen
          fun _ u => .done (.optWord (decodeRRD (s.readValue .RRD))) u
      else .raised (.transportError .RRD .R) (latch (.transport .RRD .R) (afterRead .RRD none s)) := by
  unfold readOneBody
  cases h : s.env.next.ok
  · simp [load_raised _ s h]
  · simp [load_done _ s h]

/-- TRIGGER_MANUAL_FLUSH's check (R160), both ends. -/
theorem lifecycleTriggerCheck_eq (v : Word32) (s : State) :
    lifecycleTriggerCheck v s =
      if s.C.phase.capturing = true ∧ s.C.sofReq = true ∧ v.getLsbD 12 = false then
        .raised (.protocolViolation .sofNotObserved) (latch (.protocol .sofNotObserved) s)
      else .done () s := by
  unfold lifecycleTriggerCheck decodeFFCR
  cases s.C.phase.capturing <;> cases s.C.sofReq <;> cases v.getLsbD 12 <;> rfl

/-- TRIGGER_MANUAL_FLUSH's body (R142), all its ends. -/
theorem triggerBody_eq (s : State) :
    triggerManualFlushBody s =
      if s.env.next.ok = true then
        if s.C.phase.capturing = true ∧ s.C.sofReq = true ∧ (s.readValue .FFCR).getLsbD 12 = false then
          .raised (.protocolViolation .sofNotObserved) (latch (.protocol .sofNotObserved)
            (afterRead .FFCR (some (s.readValue .FFCR)) s))
        else if s.env.advance.next.ok = true then
          .done .unit ((afterWrite .FFCR (encodeFFCRflush (s.readValue .FFCR)) true true
            (afterRead .FFCR (some (s.readValue .FFCR)) s)).updateC lifecycleTrigger)
        else .raised (.transportError .FFCR .W) (latch (.transport .FFCR .W)
          (afterWrite .FFCR (encodeFFCRflush (s.readValue .FFCR)) false s.env.advance.next.took
            (afterRead .FFCR (some (s.readValue .FFCR)) s)))
      else .raised (.transportError .FFCR .R) (latch (.transport .FFCR .R) (afterRead .FFCR none s)) := by
  unfold triggerManualFlushBody
  cases h : s.env.next.ok
  · rw [load_raised _ s h]; rfl
  · rw [load_done _ s h, andThen_done, lifecycleTriggerCheck_eq]
    simp only [if_true]
    split
    · rfl
    · rw [andThen_done]
      cases h2 : s.env.advance.next.ok
      · rw [store_raised _ _ _ h2]; rfl
      · rw [store_done _ _ _ h2]; rfl

/-- The wrapper, all its ends (R130, R227). -/
theorem runController_eq (i : Instr) (body : State → Result RspValue) (s : State) :
    runController i body s =
      if i.wellFormed = false then s.respond (.err (.illegalCommand (encode i).cmd))
      else if s.C.fault = .noFault then (body s).respond
      else s.respond (.err (.sessionAborted s.C.fault)) := rfl

end Sys2Proof.Machine
end

