-- ==== Sys2Proof/Laws/Demux.lean ====
section
/-! SUPPORT. The small lemmas of the demultiplexer: what a fed word does (spec/43_frame_demux.md R182) and what one parse
step does (R187, R188, R190). -/

namespace Sys2Proof.Machine

/-- A word that does not complete a frame is held (R182, R194). -/
theorem feedWord_holds (w : Word32) (x : Demux) (h : x.fwords.length ≠ 3) :
    feedWord w x = ({ x with fwords := x.fwords ++ [w] }, []) := by
  have h' : ¬ (x.fwords ++ [w]).length = Config.frameWords := by
    simp only [List.length_append, List.length_singleton, Config.frameWords]; omega
  simp only [feedWord, if_neg h']

/-- The fourth word of a frame has it parsed (R182, R185). -/
theorem feedWord_parses (w : Word32) (x : Demux) (h : x.fwords.length = 3) :
    feedWord w x = ({ tag := (parseFrame x.tag (x.fwords ++ [w])).tag, fwords := [] },
      (parseFrame x.tag (x.fwords ++ [w])).out) := by
  have h' : (x.fwords ++ [w]).length = Config.frameWords := by
    simp only [List.length_append, List.length_singleton, Config.frameWords, h]
  simp only [feedWord, if_pos h']

/-- A fed word leaves fewer than four words held (R30). -/
theorem feedWord_length (w : Word32) (x : Demux) (h : x.fwords.length < Config.frameWords) :
    (feedWord w x).1.fwords.length < Config.frameWords := by
  by_cases h3 : x.fwords.length = 3
  · rw [feedWord_parses w x h3]; exact Nat.zero_lt_succ 3
  · rw [feedWord_holds w x h3]
    simp only [List.length_append, List.length_singleton, Config.frameWords] at *
    omega

/-- The pairs one even byte and its odd partner add (R185). -/
theorem parsePair_out (e o : Byte) (f : Bool) (p : ParseState) :
    (parsePair e o f p).out = p.out ++ (parsePair e o f { p with out := [] }).out := by
  cases he : e.getLsbD 0 <;> cases f <;> simp only [parsePair, he] <;> simp

/-- The tag after one even byte does not depend on what was output before (R187). -/
theorem parsePair_tag (e o : Byte) (f : Bool) (p : ParseState) :
    (parsePair e o f p).tag = if e.getLsbD 0 = true then idTag e else p.tag := by
  cases he : e.getLsbD 0 <;> cases f <;> simp only [parsePair, he] <;> simp

/-- An even byte and its partner output one pair if it is an ID byte and two if it is data (R187, R188). -/
theorem parsePair_length (e o : Byte) (f : Bool) (p : ParseState) :
    (parsePair e o f p).out.length = p.out.length + if e.getLsbD 0 = true then 1 else 2 := by
  cases he : e.getLsbD 0 <;> cases f <;> simp only [parsePair, he] <;> simp

end Sys2Proof.Machine
end

