-- ==== Sys2Proof/Laws/Host.lean ====
section
/-! SUPPORT. What PUSH can do to the host's buffer `B` (spec/44_block_and_sequencer.md R201, R204): it changes the host's
record alone, and never takes `B` above its capacity. -/

namespace Sys2Proof.Machine

/-- `B` has room (R204): the word is appended. -/
theorem pushWord_room {w : Word32} {s : State} (h : s.host.buf.length < s.params.bufferWords) :
    s.pushWord w = { s with host := { s.host.nextLine with buf := s.host.buf ++ [w] } } := by
  have hb : s.bufferFull = false := by simpa [State.bufferFull] using h
  simp only [State.pushWord, hb, Bool.false_eq_true, if_false]

/-- `B` is full (R204): the host's policy. -/
theorem pushWord_full {w : Word32} {s : State} (h : s.params.bufferWords ≤ s.host.buf.length) :
    s.pushWord w = s.pushFull := by
  have hb : s.bufferFull = true := by simpa [State.bufferFull] using h
  simp only [State.pushWord, hb, if_true]

/-- PUSH changes the host's record and nothing else (R201). -/
theorem pushWord_hostOnly (w : Word32) (s : State) : ∃ h, s.pushWord w = { s with host := h } := by
  rcases Nat.lt_or_ge s.host.buf.length s.params.bufferWords with h | h
  · exact ⟨_, pushWord_room h⟩
  · rw [pushWord_full h]
    unfold State.pushFull
    split <;> exact ⟨_, rfl⟩

@[simp] theorem pushWord_C (w : Word32) (s : State) : (s.pushWord w).C = s.C := by
  obtain ⟨h, e⟩ := pushWord_hostOnly w s; rw [e]

@[simp] theorem pushWord_X (w : Word32) (s : State) : (s.pushWord w).X = s.X := by
  obtain ⟨h, e⟩ := pushWord_hostOnly w s; rw [e]

@[simp] theorem pushWord_dev (w : Word32) (s : State) : (s.pushWord w).dev = s.dev := by
  obtain ⟨h, e⟩ := pushWord_hostOnly w s; rw [e]

@[simp] theorem pushWord_env (w : Word32) (s : State) : (s.pushWord w).env = s.env := by
  obtain ⟨h, e⟩ := pushWord_hostOnly w s; rw [e]

@[simp] theorem pushWord_bus (w : Word32) (s : State) : (s.pushWord w).bus = s.bus := by
  obtain ⟨h, e⟩ := pushWord_hostOnly w s; rw [e]

@[simp] theorem pushWord_params (w : Word32) (s : State) : (s.pushWord w).params = s.params := by
  obtain ⟨h, e⟩ := pushWord_hostOnly w s; rw [e]

/-- PUSH keeps `B` within its capacity, whatever the host's policy is (R204). -/
theorem pushWord_fits {w : Word32} {s : State} (hb : s.host.buf.length ≤ s.params.bufferWords) :
    (s.pushWord w).host.buf.length ≤ s.params.bufferWords := by
  rcases Nat.lt_or_ge s.host.buf.length s.params.bufferWords with h | h
  · rw [pushWord_room h]; simpa using h
  · rw [pushWord_full h]
    unfold State.pushFull
    split
    · exact List.length_take_le _ _
    · exact hb

/-- The recommended drain limit is the capacity of `B` (R10, R204). -/
theorem recommendedLimit_eq_bufferWords (p : Params) : p.recommendedLimit = p.bufferWords := rfl

end Sys2Proof.Machine
end

