-- ==== Sys2Proof/Laws/Step.lean ====
section
/-! SUPPORT. What one step can do, said once (spec/00_scope.md R8): the reset event, a legal command, an illegal word, or
a move of the host. -/

namespace Sys2Proof.Machine

theorem step_cases {s t : State} (h : step s = .next t) :
    (s.resetIn = true ∧ t = s.blockReset) ∨
    (s.resetIn = false ∧ ∃ c i, s.port.pending = some c ∧ decode c = .legal i ∧ exec i s.acceptCommand = .next t) ∨
    (s.resetIn = false ∧ ∃ c e, s.port.pending = some c ∧ decode c = .illegal e ∧
      t = s.acceptCommand.rejectIllegal c.cmd) ∨
    (s.resetIn = false ∧ s.port.pending = none ∧ hostStep s = .next t) := by
  unfold step at h
  split at h
  · rename_i hr; exact .inl ⟨hr, (Host.Outcome.next.inj h).symm⟩
  · rename_i hr
    have hr' : s.resetIn = false := by simpa using hr
    split at h
    · rename_i c hc
      unfold runCommand at h
      split at h
      · rename_i i hi; exact .inr (.inl ⟨hr', c, i, hc, hi, h⟩)
      · rename_i e he; exact .inr (.inr (.inl ⟨hr', c, e, hc, he, (Host.Outcome.next.inj h).symm⟩))
    · rename_i hc; exact .inr (.inr (.inr ⟨hr', hc, h⟩))

/-- A move of the host leaves `C` (R201). -/
theorem hostStep_C {s t : State} (h : hostStep s = .next t) : t.C = s.C := by
  unfold hostStep runScript at h
  split at h
  case h_5 =>
    split at h
    case h_2 =>
      split at h
      case h_1 l _ =>
        unfold runLine State.branch State.jumpTo State.pushLast at h
        split at h <;> (try split at h) <;> (try split at h) <;> cases h <;> simp [State.issue]
      case h_2 => cases h; rfl
    all_goals cases h; rfl
  all_goals cases h; rfl

end Sys2Proof.Machine
end

