-- ==== Sys2Proof/Laws/Session.lean ====
section
/-! SUPPORT. What holds of the sessions of a run (spec/42_lifecycle_fsm.md R168): the sessions agree with the phase and the
counter at every step, so a drained stream is as long as the counter says; and a host with no further command stays put. -/

namespace Sys2Proof.Machine

@[simp] theorem close_current (how : SessionEnd) (x : Sessions) : (x.close how).current = none := by
  unfold Sessions.close; split <;> simp_all

@[simp] theorem drain_current (w : Option Word32) (x : Sessions) :
    (x.drain w).current = x.current.map (· ++ w.toList) := rfl

@[simp] theorem drain_ended (w : Option Word32) (x : Sessions) : (x.drain w).ended = x.ended := rfl

/-- The session in progress agrees with the block: there is one exactly outside Disabled with no fault, and its drained
stream has as many words as the counter says, none before Stopping. -/
def sessionsAgree (s : State) (x : Sessions) : Prop :=
  match x.current with
  | none => ¬ sessionInProgress s
  | some l => sessionInProgress s ∧ l.length = s.C.drainedWords ∧ (s.C.phase.capturing = true → l = [])

/-- With a fault latched a command leaves `C` and drains no word (R224). -/
theorem exec_latched {i : Instr} {s t : State} (h : exec i s = .next t) (hf : s.C.fault ≠ .noFault) :
    t.C = s.C ∧ drainedWord i s t = none := by
  cases i <;> simp only [exec, execSetMode, execEnableCapture, execDisableCapture, execReadOne, execIsFull, execIsEmpty,
    execIsReady, execIsTriggered, execFillLevel, execFifoSize, execRequestStopOnFlush, execTriggerManualFlush,
    execDemuxInit, execDemuxFeed, execDemuxStatus, execGetState, runController_eq, hf, if_false, Host.Outcome.next.injEq] at h
    <;> (try split at h) <;> subst h <;> simp [drainedWord, State.respond]

/-- What a command does to the lifecycle with no fault latched, all its ends (R151). -/
theorem exec_lifecycle {i : Instr} {s t : State} (h : exec i s = .next t) (hf : s.C.fault = .noFault) :
    (t.C.fault ≠ .noFault ∧ t.C.phase = s.C.phase) ∨
    (t.C.fault = .noFault ∧
      ((t.C.phase = s.C.phase ∧ t.C.drainedWords = s.C.drainedWords ∧ drainedWord i s t = none) ∨
       (i = .readOne ∧ s.C.phase = .stopping ∧ t.C.phase = .stopping ∧ t.C.drainedWords = s.C.drainedWords + 1 ∧
         ∃ w, drainedWord i s t = some w) ∨
       (i = .enableCapture ∧ s.C.phase = .disabled ∧ t.C.phase = .armed ∧ t.C.drainedWords = 0) ∨
       (i = .disableCapture ∧ s.C.phase ≠ .disabled ∧ t.C.phase = .disabled) ∨
       (i = .isFull ∧ s.C.phase = .armed ∧ t.C.phase = .full ∧ t.C.drainedWords = s.C.drainedWords) ∨
       (i = .triggerManualFlush ∧ s.C.phase.capturing = true ∧ t.C.phase = .stopping ∧ t.C.drainedWords = 0) ∨
       (i = .readOne ∧ s.C.phase = .stopping ∧ t.C.phase = .drained ∧ t.C.drainedWords = s.C.drainedWords ∧
         drainedWord i s t = none))) := by
  cases i <;> simp only [exec, execSetMode, execEnableCapture, execDisableCapture, execReadOne, execIsFull, execIsEmpty,
    execIsReady, execIsTriggered, execFillLevel, execFifoSize, execRequestStopOnFlush, execTriggerManualFlush,
    execDemuxInit, execDemuxFeed, execDemuxStatus, execGetState, runController_eq, hf, if_true, setModeBody_eq,
    enableCaptureBody_eq, disableCaptureBody_eq, isFullBody_eq, isEmptyBody_eq, isReadyBody_eq, isTriggeredBody_eq,
    fillLevelBody_eq, fifoSizeBody_eq, requestStopOnFlushBody_eq, readOneBody_eq, triggerBody_eq, lifecycleReadOne_eq,
    Host.Outcome.next.injEq] at h
  all_goals
    rcases s with ⟨params, ⟨phase, modeSet, cfgMode, sofReq, readyLast, drainedWords, lifecycleOk, fault⟩, X, port,
      resetIn, dev, env, bus, host⟩
    simp only at hf
    subst hf
    (try split_ifs at h) <;> subst h <;> cases phase <;>
    simp_all [drainedWord, State.updateC, lifecycleSetMode, lifecycleEnable, lifecycleDisable, lifecycleIsFull,
      lifecycleQuery, lifecycleIsReady, lifecycleRequestStop, lifecycleTrigger, enterDisabled, enterStopping,
      Phase.capturing, decodeRRD]
  all_goals cases sofReq <;> simp

theorem sessionsAgree_latched {s : State} {x : Sessions} (hf : s.C.fault ≠ .noFault) :
    sessionsAgree s x ↔ x.current = none := by
  cases hx : x.current <;> simp [sessionsAgree, hx, hf]

theorem sessionsAgree_disabled {s : State} {x : Sessions} (hp : s.C.phase = .disabled) :
    sessionsAgree s x ↔ x.current = none := by
  cases hx : x.current <;> simp [sessionsAgree, hx, hp]

/-- Only the controller record matters to the agreement. -/
theorem sessionsAgree_congr {s t : State} {x : Sessions} (hC : t.C = s.C) (h : sessionsAgree s x) : sessionsAgree t x := by
  simpa only [sessionsAgree, sessionInProgress, hC] using h

/-- Only the start of a session opens one. -/
theorem afterCommand_none {i : Instr} {s t : State} {x : Sessions} (hx : x.current = none) (h : ¬ sessionStarts i s t) :
    (x.afterCommand i s t).current = none := by
  unfold Sessions.afterCommand
  split_ifs <;> simp [hx]

/-- A command keeps the sessions in agreement with the block. -/
theorem exec_sessionsAgree {i : Instr} {s t : State} {x : Sessions} (h : exec i s = .next t) (hx : sessionsAgree s x) :
    sessionsAgree t (x.afterCommand i s t) := by
  have stays : t.C.phase = s.C.phase → ¬ sessionStarts i s t := fun hp hs => by
    have := hp.symm.trans hs.2.2; rw [hs.2.1] at this; cases this
  by_cases hf : s.C.fault = .noFault
  swap
  · obtain ⟨hC, -⟩ := exec_latched h hf
    rw [sessionsAgree_latched (hC ▸ hf)]
    exact afterCommand_none ((sessionsAgree_latched hf).1 hx) (stays (by rw [hC]))
  rcases exec_lifecycle h hf with ⟨ht, hp⟩ | ⟨ht, hc⟩
  · rw [sessionsAgree_latched ht]
    by_cases hd : s.C.phase = .disabled
    · exact afterCommand_none ((sessionsAgree_disabled hd).1 hx) (stays hp)
    · simp [Sessions.afterCommand, sessionAborts, sessionInProgress, hd, hf, ht]
  · have plain : t.C.phase = s.C.phase ∨ s.C.phase ≠ .disabled → t.C.phase = s.C.phase ∨ t.C.phase ≠ .disabled →
        x.afterCommand i s t = x.drain (drainedWord i s t) := fun h1 h2 => by
      have n1 : ¬ sessionStarts i s t := fun hs => h1.elim (fun e => stays e hs) (fun e => e hs.2.1)
      have n2 : ¬ sessionEndsWell i s t := fun he => by
        rcases h2 with e | e
        · rw [he.2.1, he.2.2.1] at e; cases e
        · exact e he.2.2.1
      have n3 : ¬ sessionLeaves i s t := fun hl => h2.elim (fun e => hl.1 (e ▸ hl.2.1)) (fun e => e hl.2.1)
      have n0 : ¬ sessionAborts s t := fun ha => ha.2 ht
      simp only [Sessions.afterCommand, if_neg n0, if_neg n1, if_neg n2, if_neg n3]
    rcases hc with ⟨hp, hd, hw⟩ | ⟨-, hp, hq, hd, w, hw⟩ | ⟨rfl, hp, hq, hd⟩ | ⟨rfl, hp, hq⟩ | ⟨rfl, hp, hq, hd⟩ |
      ⟨rfl, hp, hq, hd⟩ | ⟨rfl, hp, hq, hd, hw⟩
    · rw [plain (.inl hp) (.inl hp), hw]
      revert hx
      cases hc : x.current <;> simp [sessionsAgree, sessionInProgress, hc, hf, ht, hp, hd]
    · rw [plain (.inl (hq.trans hp.symm)) (.inl (hq.trans hp.symm)), hw]
      revert hx
      cases hc : x.current <;> simp [sessionsAgree, sessionInProgress, hc, hf, ht, hp, hq, hd, Phase.capturing]
    · simp [Sessions.afterCommand, sessionAborts, sessionStarts, sessionInProgress, hp, hq, sessionsAgree, ht, hd]
    · rw [sessionsAgree_disabled hq]
      unfold Sessions.afterCommand
      split_ifs with h1 h2 h3 h4
      · simp
      · exact absurd h2.2.1 hp
      · simp
      · simp
      · exact absurd ⟨hp, hq, h3⟩ h4
    · rw [plain (.inr (by simp [hp])) (.inr (by simp [hq]))]
      revert hx
      cases hc : x.current <;> simp [sessionsAgree, sessionInProgress, hc, hf, ht, hp, hq, hd, Phase.capturing, drainedWord]
    · rw [plain (.inr (by intro e; simp [e, Phase.capturing] at hp)) (.inr (by simp [hq]))]
      have hnd : s.C.phase ≠ .disabled := by intro e; simp [e, Phase.capturing] at hp
      revert hx
      have hs : Phase.stopping.capturing = false := rfl
      cases hc : x.current <;> simp [sessionsAgree, sessionInProgress, hc, hf, ht, hp, hq, hd, hnd, hs, drainedWord]
    · rw [plain (.inr (by simp [hp])) (.inr (by simp [hq])), hw]
      revert hx
      cases hc : x.current <;> simp [sessionsAgree, sessionInProgress, hc, hf, ht, hp, hq, hd, Phase.capturing]

/-- Every step keeps the sessions in agreement with the block (R168). -/
theorem step_sessionsAgree {s t : State} {x : Sessions} (h : step s = .next t) (hx : sessionsAgree s x) :
    sessionsAgree t (x.afterStep s t) := by
  rcases step_cases h with ⟨hr, rfl⟩ | ⟨hr, c, i, hp, hd, he⟩ | ⟨hr, c, e, hp, hd, rfl⟩ | ⟨hr, hp, hh⟩
  · rw [sessionsAgree_disabled rfl]; simp [Sessions.afterStep, hr]
  · have : x.afterStep s t = x.afterCommand i s.acceptCommand t := by
      simp only [Sessions.afterStep, State.nextCommand, hr, hp, hd, Option.bind_some, Decoded.instr?]; rfl
    rw [this]
    exact exec_sessionsAgree he (sessionsAgree_congr rfl hx)
  · have : x.afterStep s (s.acceptCommand.rejectIllegal c.cmd) = x := by
      simp [Sessions.afterStep, State.nextCommand, hr, hp, hd, Decoded.instr?]
    rw [this]
    exact sessionsAgree_congr rfl hx
  · have : x.afterStep s t = x := by simp [Sessions.afterStep, State.nextCommand, hr, hp]
    rw [this]
    exact sessionsAgree_congr (hostStep_C hh) hx

/-- The drained stream of the session in progress is within the limit (R166). -/
theorem drainedStream_bounded {s : State} {x : Sessions} {l : List Word32} (hx : sessionsAgree s x)
    (hc : x.current = some l) (hb : s.C.fault = .noFault → s.C.drainedWords ≤ s.params.drainLimit) :
    l.length ≤ s.params.drainLimit := by
  simp only [sessionsAgree, hc] at hx
  exact hx.2.1 ▸ hb hx.1.2

/-- With the drain limit at its recommended value, `B` has room for the whole drained stream (R204). -/
theorem drainedStream_fits_buffer {s : State} {x : Sessions} {l : List Word32} (hx : sessionsAgree s x)
    (hc : x.current = some l) (hb : s.C.fault = .noFault → s.C.drainedWords ≤ s.params.drainLimit)
    (hl : s.params.drainLimit = s.params.recommendedLimit) : l.length ≤ s.params.bufferWords :=
  (drainedStream_bounded hx hc hb).trans (hl.trans (recommendedLimit_eq_bufferWords _)).le

/-- A run without a session in progress starts in agreement. -/
theorem sessionsAgree_start {s : State} (h : s.C.phase = .disabled) : sessionsAgree s Sessions.start :=
  (sessionsAgree_disabled h).2 rfl

/-- All of a run keeps the agreement. -/
theorem runSessions_agree (n : Nat) {s t : State} {x y : Sessions} (hx : sessionsAgree s x)
    (h : runSessions n s x = some (t, y)) : sessionsAgree t y := by
  induction n generalizing s x with
  | zero => cases h; exact hx
  | succ n ih =>
    cases hs : step s with
    | next u => rw [runSessions, hs] at h; exact ih (step_sessionsAgree hs hx) h
    | fault r => rw [runSessions, hs] at h; cases h
    | refused r => rw [runSessions, hs] at h; cases h

/-- A host with no further command leaves the machine as it is, but for a reset. -/
theorem step_of_noFurtherCommand {s : State} (hr : s.resetIn = false) (h : s.noFurtherCommand = true) :
    step s = .next s := by
  obtain ⟨params, C, X, ⟨pending, rsp⟩, resetIn, dev, env, bus, ⟨script, pos, last, status, awaiting, feed, buf, pairs,
    extPlan, extCount, fullPlan, fullCount⟩⟩ := s
  cases hr
  cases pending <;> simp [State.noFurtherCommand, HostState.finished] at h
  obtain ⟨rfl, h⟩ := h
  cases status <;> simp at h <;> simp [step, hostStep, runScript, h]

/-- A run ends at most once (R168 "the first state"). -/
theorem runEndsAfter_unique {m n : Nat} {s : State} (hm : runEndsAfter m s) (hn : runEndsAfter n s) : m = n := by
  rcases Nat.lt_trichotomy m n with h | h | h
  · exact absurd hm.1 (by simp [hn.2 m h])
  · exact h
  · exact absurd hn.1 (by simp [hm.2 n h])

end Sys2Proof.Machine
end

