-- ==== Sys2Proof/Tests/Slice0.lean ====
section
/-! SUPPORT. Tests of the model's own: expected results come from spec/95_test_vectors.md, the worked examples of the
rules, or hand calculation from them; and for each statement a witness that meets its hypotheses. -/

namespace Sys2Proof.Tests

open Sys2Proof.Machine Sys2Proof.Claims

/-! ### Small states -/

/-- A block after reset on a device of 4096 words, with the drain limit of spec/95_test_vectors.md. -/
def base : State := { State.reset with params := { etfBase := 0x1000, addrW := 32, rszWords := 4096, drainLimit := 4128 } }

/-- The next transaction completes, and a read draws v. -/
def good (v : Word32) : Draw := { ok := true, value := v, took := false }

/-- The next transaction fails; a write then took effect or not. -/
def bad (took : Bool) : Draw := { ok := false, value := 0, took := took }

/-- A controller in a phase, with a mode set. -/
def inPhase (p : Phase) : Controller := { Controller.reset with phase := p, modeSet := true }

/-- A controller in a phase, with the stop-on-flush request made. -/
def requested (p : Phase) : Controller := { inPhase p with sofReq := true }

/-- A controller in Stopping that has just seen ready. -/
def ready : Controller := { inPhase .stopping with readyLast := true }

/-- The block with a controller record and the environment's next answers. -/
def at_ (c : Controller) (plan : List Draw) : State := { base with C := c, env := { plan := plan, count := 0 } }

/-- The block with a demultiplexer record. -/
def demuxAt (t : Tag) (ws : List Word32) : State := { base with X := { tag := t, fwords := ws } }

/-- The block with a command waiting on the port. -/
def waiting (c : Command) : State := { base with port := { pending := some c, rsp := none } }

/-- The response a command ends with. -/
def rspOf (i : Instr) (s : State) : Option Response := (execState i s).port.rsp

/-- The controller a command leaves. -/
def ctlOf (i : Instr) (s : State) : Controller := (execState i s).C

/-- The transactions a command issues, on a state with an empty history. -/
def busOf (i : Instr) (s : State) : List BusEvent := (execState i s).bus

/-! ### Well-formedness -/

/-- R93 case 3. -/
theorem test_wf_refuses_mode_three : (Instr.setMode 0b11).wellFormed = false ∧ (Instr.setMode 0b10).wellFormed = true := by
  decide

/-- R201: a jump to a label the script lacks. -/
theorem test_script_refuses_missing_label :
    scriptWellFormed [⟨none, .goto 3⟩] = false ∧ scriptWellFormed [⟨some 3, .ifGoto .isNone 4⟩] = false ∧
    scriptWellFormed [⟨some 3, .goto 3⟩] = true := by decide

/-- The Sequencer's script (R203) is well formed. -/
theorem test_sequencer_wf : scriptWellFormed (sequencerScript 0b01) = true := by decide

/-! ### Decoding: words written out from the patterns of R92, one for each constructor, and V-DEC-1 -/

theorem test_decode_setMode :
    decode ⟨0b0000000100000000, 0⟩ = .legal (.setMode 0b00) ∧ decode ⟨0b0000000100000001, 0⟩ = .legal (.setMode 0b01) ∧
    decode ⟨0b0000000100000010, 0⟩ = .legal (.setMode 0b10) := by decide

theorem test_decode_switches :
    decode ⟨0b0000001000000000, 0xDEADBEEF⟩ = .legal .enableCapture ∧
    decode ⟨0b0000001100000000, 0⟩ = .legal .disableCapture := by decide

theorem test_decode_readOne : decode ⟨0b0000010000000000, 0⟩ = .legal .readOne := by decide

theorem test_decode_status_queries :
    decode ⟨0b0000010100000000, 0⟩ = .legal .isFull ∧ decode ⟨0b0000011000000000, 0⟩ = .legal .isEmpty ∧
    decode ⟨0b0000011100000000, 0⟩ = .legal .isReady ∧ decode ⟨0b0000100000000000, 0⟩ = .legal .isTriggered := by decide

theorem test_decode_levels :
    decode ⟨0b0000100100000000, 0⟩ = .legal .fillLevel ∧ decode ⟨0b0000101000000000, 0⟩ = .legal .fifoSize := by decide

theorem test_decode_stop_sequence :
    decode ⟨0b0000101100000000, 0⟩ = .legal (.requestStopOnFlush false) ∧
    decode ⟨0b0000101100000001, 0⟩ = .legal (.requestStopOnFlush true) ∧
    decode ⟨0b0000110000000000, 0⟩ = .legal .triggerManualFlush := by decide

theorem test_decode_demux :
    decode ⟨0b0010000000000000, 0⟩ = .legal (.demuxInit 0) ∧ decode ⟨0b0010000001111111, 0⟩ = .legal (.demuxInit 127) ∧
    decode ⟨0b0010000100000000, 0x43424103⟩ = .legal (.demuxFeed 0x43424103) ∧
    decode ⟨0b0010001000000000, 0⟩ = .legal .demuxStatus := by decide

theorem test_decode_getState : decode ⟨0b0011000000000000, 0⟩ = .legal .getState := by decide

/-- V-DEC-1: reserved argument bits and mode 11. -/
theorem test_decode_reserved_bits :
    decode ⟨0x0103, 0⟩ = .illegal .illegalMode ∧ decode ⟨0x0104, 0⟩ = .illegal .reservedBits ∧
    decode ⟨0x0201, 0⟩ = .illegal .reservedBits ∧ decode ⟨0x0B02, 0⟩ = .illegal .reservedBits ∧
    decode ⟨0x2080, 0⟩ = .illegal .reservedBits ∧ decode ⟨0x2101, 0⟩ = .illegal .reservedBits ∧
    decode ⟨0x3001, 0⟩ = .illegal .reservedBits := by decide

/-- V-DEC-1: unassigned op values. -/
theorem test_decode_unassigned :
    decode ⟨0x0000, 0⟩ = .illegal .unassignedOp ∧ decode ⟨0x0D00, 0⟩ = .illegal .unassignedOp ∧
    decode ⟨0x1F00, 0⟩ = .illegal .unassignedOp ∧ decode ⟨0x2300, 0⟩ = .illegal .unassignedOp ∧
    decode ⟨0x3100, 0⟩ = .illegal .unassignedOp ∧ decode ⟨0xFF00, 0⟩ = .illegal .unassignedOp := by decide

/-- Words as spec/opcode_table.json numbers them: CMD in bits 15 to 0, DATA above. -/
theorem test_decode_table_words :
    decodeTableWord 16 0x0102 = some (.setMode 0b10) ∧ decodeTableWord 16 0x2100 = some (.demuxFeed 0) ∧
    decodeTableWord 48 0xDEADBEEF2100 = some (.demuxFeed 0xDEADBEEF) ∧ decodeTableWord 16 0x0103 = none := by decide

/-- A word placed on the port is the next step's command, from reset. -/
theorem test_fetch_word_runs :
    ∃ t, step (State.reset.withFetchWord 16 0x2009) = .next t ∧ t.X.tag = 9 ∧ t.port.rsp = some (.ok .unit) :=
  ⟨_, rfl, rfl, rfl⟩

/-- R96: operand forms. -/
theorem test_assemble :
    assemble .SET_MODE (.modeName .hardware) = some (.setMode 0b10) ∧ assemble .SET_MODE (.number 3) = none ∧
    assemble .REQUEST_STOP_ON_FLUSH (.number 1) = some (.requestStopOnFlush true) ∧
    assemble .DEMUX_INIT (.number 128) = none ∧ assemble .IS_FULL (.number 0) = none := by decide

/-! ### The register codec: V-CODEC-1 to V-CODEC-9 -/

theorem test_codec_mode :
    encodeMode 0xFFFFFFFE 0b00 = 0xFFFFFFFC ∧ encodeMode 0x12345678 0b10 = 0x1234567A ∧
    decodeMode 0xFFFFFFFD = .software ∧ decodeMode 3 = .reserved3 ∧ decodeMode 2 = .hardware ∧ decodeMode 0 = .circular := by
  decide

theorem test_codec_status :
    decodeStatus 0x00000005 = ⟨true, false, true, false⟩ ∧ decodeStatus 0x00000017 = ⟨true, true, true, true⟩ ∧
    decodeStatus 0xFFFFFFE8 = ⟨false, false, false, false⟩ ∧ decodeStatus 0xFFFFFFEF = ⟨true, true, true, false⟩ := by decide

theorem test_codec_ffcr :
    decodeFFCR 0x00001040 = ⟨true, true⟩ ∧ decodeFFCR 0xFFFFEFBF = ⟨false, false⟩ ∧
    encodeFFCRsof 0x00000041 true = 0x00001001 ∧ encodeFFCRsof 0xFFFFFFFF false = 0xFFFFEFBF ∧
    encodeFFCRsof 0xFFFFFFFF true = 0xFFFFFFBF ∧ encodeFFCRflush 0x00001000 = 0x00001040 := by decide

theorem test_codec_words :
    encodeControl true = 1 ∧ encodeControl false = 0 ∧ decodeRRD 0xFFFFFFFF = none ∧ decodeRRD 0 = some 0 ∧
    decodeRRD 0x7FFFFFFF = some 0x7FFFFFFF ∧ wordsToBytes 0x40000000 = 0x100000000 ∧
    wordsToBytes 0xFFFFFFFF = 0x3FFFFFFFC := by decide

/-! ### Commands: V-CTL and V-ERR, at most two for each -/

/-- V-CTL-2. -/
theorem test_setMode_writes :
    ctlOf (.setMode 0b10) (at_ Controller.reset [good 1, good 0]) =
      { Controller.reset with modeSet := true, cfgMode := 0b10 } ∧
    busOf (.setMode 0b10) (at_ Controller.reset [good 1, good 0]) =
      [.read .MODE 0x1028 .disabled (some 1), .write .MODE 0x1028 2 true true] := by decide

/-- V-ERR-3: the failed write applies no lifecycle update; the device took the word (R76). -/
theorem test_setMode_write_fails :
    ctlOf (.setMode 0b01) (at_ Controller.reset [good 0, bad true]) =
      { Controller.reset with fault := .transport .MODE .W } ∧
    rspOf (.setMode 0b01) (at_ Controller.reset [good 0, bad true]) = some (.err (.transportError .MODE .W)) ∧
    (execState (.setMode 0b01) (at_ Controller.reset [good 0, bad true])).dev.modeW = some 1 := by decide

/-- V-CTL-6: without SET_MODE the lifecycle is broken. -/
theorem test_enable_without_mode :
    ctlOf .enableCapture (at_ Controller.reset [good 0]) =
      { Controller.reset with phase := .armed, lifecycleOk := false } ∧
    busOf .enableCapture (at_ Controller.reset [good 0]) = [.write .CTL 0x1020 1 true true] := by decide

/-- V-CTL-5 and V-ERR-10. -/
theorem test_enable_again_and_failed :
    ctlOf .enableCapture (at_ (inPhase .armed) [good 0]) = inPhase .armed ∧
    ctlOf .enableCapture (at_ (inPhase .disabled) [bad false]) =
      { inPhase .disabled with fault := .transport .CTL .W } := by decide

/-- V-CTL-8. -/
theorem test_disable_from_full :
    ctlOf .disableCapture (at_ (requested .full) [good 0]) = { Controller.reset with lifecycleOk := false } ∧
    busOf .disableCapture (at_ (requested .full) [good 0]) = [.write .CTL 0x1020 0 true true] := by decide

/-- V-CTL-9. -/
theorem test_disable_from_drained :
    ctlOf .disableCapture (at_ { requested .drained with cfgMode := 0b01, drainedWords := 8 } [good 0]) =
      { Controller.reset with cfgMode := 0b01 } := by decide

/-- V-CTL-12 and V-CTL-13. -/
theorem test_readOne_concludes :
    ctlOf .readOne (at_ ready [good 0xFFFFFFFF]) = inPhase .drained ∧
    ctlOf .readOne (at_ (inPhase .stopping) [good 0xFFFFFFFF]) = inPhase .stopping ∧
    rspOf .readOne (at_ ready [good 0xFFFFFFFF]) = some (.ok (.optWord none)) := by decide

/-- V-ERR-7, drain limit 2, and V-ERR-8. -/
theorem test_readOne_violations :
    ctlOf .readOne { at_ { ready with drainedWords := 2 } [good 5] with params := ⟨0x1000, 32, 1, 2⟩ } =
      { inPhase .stopping with drainedWords := 3, fault := .protocol .drainLimit } ∧
    rspOf .readOne (at_ (inPhase .drained) [good 0]) = some (.err (.protocolViolation .dataAfterDrained)) := by decide

/-- V-CTL-15 to V-CTL-17. -/
theorem test_isFull :
    ctlOf .isFull (at_ (inPhase .armed) [good 0xFFFFFFFE]) = inPhase .armed ∧
    ctlOf .isFull (at_ (inPhase .armed) [good 1]) = inPhase .full ∧
    ctlOf .isFull (at_ Controller.reset [good 1]) = Controller.reset := by decide

/-- V-CTL-18, and the example of R136. -/
theorem test_isEmpty :
    rspOf .isEmpty (at_ ready [good 0x10]) = some (.ok (.bool true)) ∧
    rspOf .isEmpty (at_ ready [good 0x05]) = some (.ok (.bool false)) ∧
    ctlOf .isEmpty (at_ ready [good 0x10]) = inPhase .stopping := by decide

/-- V-CTL-19 and V-CTL-20. -/
theorem test_isReady :
    ctlOf .isReady (at_ (inPhase .stopping) [good 4]) = ready ∧
    ctlOf .isReady (at_ (inPhase .armed) [good 4]) = inPhase .armed ∧
    rspOf .isReady (at_ (inPhase .armed) [good 4]) = some (.ok (.bool true)) := by decide

/-- V-CTL-21. -/
theorem test_isTriggered :
    rspOf .isTriggered (at_ ready [good 2]) = some (.ok (.bool true)) ∧
    rspOf .isTriggered (at_ ready [good 8]) = some (.ok (.bool false)) := by decide

/-- V-CTL-28 (the device law overrides the draw) and V-CTL-30. -/
theorem test_fillLevel :
    rspOf .fillLevel (at_ Controller.reset [good 7]) = some (.ok (.bytes 0)) ∧
    rspOf .fillLevel { at_ (inPhase .armed) [good 0xFFFFFFFF] with dev := { Device.powerUp with ctlW := some 1 } } =
      some (.ok (.bytes 17179869180)) := by decide

/-- V-CTL-31: the Size law fixes the answer. -/
theorem test_fifoSize :
    rspOf .fifoSize (at_ Controller.reset [good 0]) = some (.ok (.bytes 16384)) ∧
    busOf .fifoSize (at_ Controller.reset [good 0]) = [.read .SIZE 0x1004 .disabled (some 4096)] := by decide

/-- V-CTL-22, its first half, and V-CTL-26. -/
theorem test_requestStop :
    busOf (.requestStopOnFlush true) (at_ (inPhase .full) [good 0x41, good 0]) =
      [.read .FFCR 0x1304 .full (some 0x41), .write .FFCR 0x1304 0x1001 true true] ∧
    ctlOf (.requestStopOnFlush true) (at_ (inPhase .full) [good 0x41, good 0]) = requested .full ∧
    ctlOf (.requestStopOnFlush false) (at_ (requested .armed) [good 0xFFFFFFFF, good 0]) = inPhase .armed := by decide

/-- V-CTL-27. -/
theorem test_requestStop_in_stopping :
    ctlOf (.requestStopOnFlush false) (at_ (inPhase .stopping) [good 0x1000, good 0]) =
      { inPhase .stopping with lifecycleOk := false } := by decide

/-- V-CTL-22, its second half, and V-CTL-24. -/
theorem test_trigger_enters_stopping :
    ctlOf .triggerManualFlush (at_ (requested .full) [good 0x1001, good 0]) = requested .stopping ∧
    busOf .triggerManualFlush (at_ (requested .full) [good 0x1001, good 0]) =
      [.read .FFCR 0x1304 .full (some 0x1001), .write .FFCR 0x1304 0x1041 true true] ∧
    busOf .triggerManualFlush (at_ (requested .full) [good 0]) = [.read .FFCR 0x1304 .full (some 0)] ∧
    rspOf .triggerManualFlush (at_ (requested .full) [good 0]) = some (.err (.protocolViolation .sofNotObserved)) := by decide

/-- V-CTL-23 and V-CTL-25. -/
theorem test_trigger_without_request :
    ctlOf .triggerManualFlush (at_ (inPhase .armed) [good 0, good 0]) = { inPhase .armed with lifecycleOk := false } ∧
    ctlOf .triggerManualFlush (at_ Controller.reset [good 0x1000, good 0]) = Controller.reset := by decide

/-- V-DMX-8: a new tag drops the held words. -/
theorem test_demuxInit :
    (execState (.demuxInit 9) (demuxAt 0 [0xB3B2B1B0, 0xB7B6B5B4, 0xBBBAB9B8])).X = { tag := 9, fwords := [] } := by decide

/-- V-DMX-1, the fourth word. -/
theorem test_demuxFeed_frame :
    (execState (.demuxFeed 0x0C054D03) (demuxAt 0 [0x43424103, 0x47054644, 0x4B014948])).fedPairs =
      [(1, 0x41), (1, 0x42), (1, 0x43), (1, 0x45), (1, 0x46), (1, 0x47), (2, 0x48), (2, 0x49), (0, 0x4B), (1, 0x4D)] ∧
    (execState (.demuxFeed 0x0C054D03) (demuxAt 0 [0x43424103, 0x47054644, 0x4B014948])).X =
      { tag := 2, fwords := [] } := by decide

/-- V-DMX-3 and V-DMX-10: the sentinel is frame data. -/
theorem test_demuxFeed_sentinel :
    (execState (.demuxFeed 0xFFFFFFFF) (demuxAt 5 [0xFFFFFFFF, 0xFFFFFFFF, 0xFFFFFFFF])).fedPairs =
      [(5, 0xFF), (0x7F, 0xFF), (0x7F, 0xFF), (0x7F, 0xFF), (0x7F, 0xFF), (0x7F, 0xFF), (0x7F, 0xFF)] := by decide

/-- V-DMX-5: delayed changes. -/
theorem test_parseFrame_delayed :
    parseFrame 1 [0x33221107, 0x66564409, 0x9988770B, 0x55CCBBAA] =
      { out := [(1, 0x11), (3, 0x22), (3, 0x33), (3, 0x44), (4, 0x56), (4, 0x66), (4, 0x77), (5, 0x88), (5, 0x99),
          (5, 0xAB), (5, 0xBB), (5, 0xCC)], tag := 5 } := by decide

/-- V-DMX-8. -/
theorem test_demuxStatus :
    rspOf .demuxStatus (demuxAt 0 [0xB3B2B1B0, 0xB7B6B5B4, 0xBBBAB9B8]) = some (.ok (.demuxStatus 0 3)) := by decide

/-- V-CTL-32: the pending ready observation stays. -/
theorem test_getState :
    rspOf .getState (at_ ready []) = some (.ok (.snapshot
      { phase := 3, modeSet := true, cfgMode := 0, sofReq := false, readyLast := true, drainedWords := 0,
        lifecycleOk := true, fault := .noFault })) ∧ ctlOf .getState (at_ ready []) = ready := by decide

/-- V-ERR-4 and V-ERR-6: with a fault latched. -/
theorem test_latched :
    rspOf .isFull (at_ { Controller.reset with fault := .transport .MODE .W } []) =
      some (.err (.sessionAborted (.transport .MODE .W))) ∧
    rspOf .demuxStatus (at_ { Controller.reset with fault := .transport .MODE .W } []) = some (.ok (.demuxStatus 0 0)) := by
  decide

/-- V-ERR-1 and V-ERR-5: illegal words are answered before the latch is looked at. -/
theorem test_illegal :
    step (waiting ⟨0x0103, 0⟩) = .next { base with port := { pending := none, rsp := some (.err (.illegalCommand 0x0103)) } } :=
  rfl

/-- R220, R28, R21: the numeric codes. -/
theorem test_codes :
    Response.code (.ok .unit) = 0 ∧ (CmdError.illegalCommand 0).code = 1 ∧ (CmdError.sessionAborted .noFault).code = 4 ∧
    (SessionFault.protocol .dataAfterDrained).code = 4 ∧ Phase.drained.code = 4 := by decide

/-! ### The host (R201 to R208) -/

/-- A host that runs a script. -/
def hosting (script : List ScriptLine) (h : HostState) : State := { base with host := { h with script := script } }

/-- R203's encodings, with m = software. -/
theorem test_sequencer_words :
    (sequencerScript 0b01).filterMap (fun l => match l.body with
      | .issue c => some c.cmd
      | _ => none) =
    [0x0300, 0x0A00, 0x0101, 0x0200, 0x0900, 0x0500, 0x0B01, 0x0C00, 0x0400, 0x0700, 0x0400, 0x0300, 0x2000] := by decide

/-- R201: PUSH appends the word; with no word in `last` it has no meaning. -/
theorem test_push :
    step (hosting [⟨none, .push⟩] { HostState.idle with last := some (.ok (.optWord (some 0))) }) =
      .next (hosting [⟨none, .push⟩]
        { HostState.idle with last := some (.ok (.optWord (some 0))), buf := [0], pos := 1 }) ∧
    step (hosting [⟨none, .push⟩] HostState.idle) = .fault .pushWithoutWord := ⟨rfl, rfl⟩

/-- The host's record a step leaves, where it answers next. -/
def hostAfter : Host.Outcome State Fault Refusal → Option HostState
  | .next t => some t.host
  | .fault _ => none
  | .refused _ => none

/-- A host at a PUSH with B at its capacity of 32 words, on a device of no words (R204). -/
def fullHost (plan : List FullChoice) : State :=
  { hosting [⟨none, .push⟩] { HostState.idle with
      last := some (.ok (.optWord (some 7))), buf := List.replicate 32 0, fullPlan := plan } with
    params := { base.params with rszWords := 0 } }

/-- R204: the last free place is used; a full B goes on within its capacity, or the script stops. -/
theorem test_push_full :
    let room := { fullHost [] with host := { (fullHost []).host with buf := List.replicate 31 0 } }
    let afterPush := fun s => hostAfter (step s)
    (afterPush room).map (fun h => (h.buf.length, h.pos)) = some (32, 1) ∧
    (afterPush (fullHost [.goOn (List.replicate 33 1) 5])).map (fun h => (h.buf, h.pos, h.fullPlan)) =
      some (List.replicate 32 1, 5, []) ∧
    (afterPush (fullHost [.stop])).map (fun h => (h.buf, h.status)) = some (List.replicate 32 0, .ended) := by decide

/-- R201: a condition that holds jumps, one that does not goes on; a label the script lacks has no meaning. -/
theorem test_branch :
    step (hosting [⟨none, .ifGoto .isNone 7⟩, ⟨some 7, .endScript⟩, ⟨some 8, .endScript⟩]
      { HostState.idle with last := some (.ok (.optWord none)) }) =
      .next (hosting [⟨none, .ifGoto .isNone 7⟩, ⟨some 7, .endScript⟩, ⟨some 8, .endScript⟩]
        { HostState.idle with last := some (.ok (.optWord none)), pos := 1 }) ∧
    step (hosting [⟨none, .goto 9⟩] HostState.idle) = .fault (.undefinedLabel 9) := ⟨rfl, rfl⟩

/-- R201: an error the next line does not handle stops the script; one it handles does not. -/
theorem test_unhandled_error :
    ((HostState.idle.recordResponse (.err (.illegalCommand 0))).status = .aborted (.illegalCommand 0)) ∧
    (({ HostState.idle with script := [⟨none, .push⟩, ⟨none, .ifGoto .isErr 0⟩] } : HostState).recordResponse
      (.err (.illegalCommand 0))).status = .running := by decide

/-- R204 and R10 with Size 4096: 4128 words. -/
theorem test_buffer_capacity : base.params.bufferWords = 4128 ∧ base.params.recommendedLimit = 4128 := by decide

/-! ### Sessions and the end of a run (R168) -/

/-- The words a drain has returned so far, as a session in progress. -/
def draining (l : List Word32) : Sessions := { current := some l, ended := [] }

/-- R168: a word of the drain joins the stream, and DISABLE_CAPTURE in Drained ends the session well with it. -/
theorem test_session_stream :
    let s := at_ { inPhase .stopping with drainedWords := 1 } [good 0]
    (draining [7]).afterCommand .readOne s (execState .readOne s) = draining [7, 0] ∧
    (draining [7, 0]).afterCommand .disableCapture (at_ (inPhase .drained) [good 0])
      (execState .disableCapture (at_ (inPhase .drained) [good 0])) =
      { current := none, ended := [⟨.well, [7, 0]⟩] } := by decide

/-- R168: a fault ends the session in progress by abort; a SET_MODE that fails in Disabled ends none; and a drain that is
abandoned ends neither well nor by abort. -/
theorem test_session_ends :
    (draining [7]).afterCommand .isReady (at_ (inPhase .stopping) [bad false])
      (execState .isReady (at_ (inPhase .stopping) [bad false])) = { current := none, ended := [⟨.byAbort, [7]⟩] } ∧
    Sessions.start.afterCommand (.setMode 0b01) (at_ Controller.reset [bad false])
      (execState (.setMode 0b01) (at_ Controller.reset [bad false])) = Sessions.start ∧
    (draining [7]).afterCommand .disableCapture (at_ (inPhase .stopping) [good 0])
      (execState .disableCapture (at_ (inPhase .stopping) [good 0])) =
      { current := none, ended := [⟨.otherwise, [7]⟩] } := by decide

/-- ENABLE_CAPTURE waits on the port, and then the host polls once. -/
def polling (plan : List Draw) : State :=
  { at_ (inPhase .disabled) plan with
    port := { pending := some ⟨0x0200, 0⟩, rsp := none }
    host := { HostState.idle with script := [commandLine none .isFull] } }

/-- R168, as in program P4: the poll fails, which aborts the session; the run ends when the script has read the error, in
the fourth step. With a poll that completes, the session goes on and the run does not end there. -/
theorem test_run_end : runEndsAfter 4 (polling [good 0, bad false]) ∧ runOver 4 (polling [good 0, good 0]) = false := by
  decide

/-- R208, R230, R193: filtering by tag. -/
theorem test_tag_filter :
    keepWanted [1] [(1, 0x41), (0, 0x42), (2, 0x43)] = [(1, 0x41)] ∧
    unexpectedTags [1] [(1, 0x41), (0, 0x42), (2, 0x43)] = [2] ∧
    sourceStream 1 [(1, 0x41), (0, 0x42), (1, 0x43)] = [0x41, 0x43] := by decide

/-! ### Witnesses: each statement's hypotheses are met by a concrete state, clause by clause, the boundaries among them -/

/-- The three cases of a one-transaction command: refused, failed, completed. -/
abbrev threeEnds (c : Controller) (v : Word32) : Prop :=
  (at_ { c with fault := .transport .STS .R } []).C.fault ≠ .noFault ∧
  ((at_ c [bad false]).C.fault = .noFault ∧ (at_ c [bad false]).env.next.ok = false) ∧
  ((at_ c [good v]).C.fault = .noFault ∧ firstOk (at_ c [good v]) ∧ (at_ c [good v]).env.next.value = v)

/-- The fourth case of a two-transaction command: the second one fails. -/
abbrev secondFails (c : Controller) (v : Word32) (took : Bool) : Prop :=
  (at_ c [good v, bad took]).C.fault = .noFault ∧ firstOk (at_ c [good v, bad took]) ∧
  ¬ secondOk (at_ c [good v, bad took]) ∧ (at_ c [good v, bad took]).env.advance.next.took = took

/-- The fifth: both complete. -/
abbrev bothComplete (c : Controller) (v : Word32) : Prop :=
  (at_ c [good v, good 0]).C.fault = .noFault ∧ firstOk (at_ c [good v, good 0]) ∧ secondOk (at_ c [good v, good 0])

theorem witness_DecodeEncodeRoundTrip :
    (Instr.setMode 0b10).wellFormed = true ∧ (Instr.demuxInit 127).wellFormed = true ∧
    decode (encode (.demuxInit 127)) = .legal (.demuxInit 127) := by decide

theorem witness_DecodedCommandReencodes :
    decode ⟨0x2100, 0xFFFFFFFF⟩ = .legal (.demuxFeed 0xFFFFFFFF) ∧ decode ⟨0x0B01, 3⟩ = .legal (.requestStopOnFlush true) := by
  decide

theorem witness_LegalWordsAreThePatterns :
    (⟨.DEMUX_INIT, 0xFF80, 0x2000⟩ ∈ opRows ∧ OpRow.admits ⟨.DEMUX_INIT, 0xFF80, 0x2000⟩ 0x207F = true) ∧
    decode ⟨0x207F, 0⟩ = .legal (.demuxInit 127) ∧
    (∃ r ∈ opRows, r.admits 0x0102 = true) ∧ (0x0102 : CmdWord) ≠ 0x0103 := by decide

theorem witness_IllegalWordChangesNothing :
    ((waiting ⟨0x0104, 0⟩).resetIn = false ∧ (waiting ⟨0x0104, 0⟩).port.pending = some ⟨0x0104, 0⟩ ∧
      ∀ r ∈ opRows, r.admits 0x0104 = false) ∧
    ((waiting ⟨0x0103, 9⟩).resetIn = false ∧ (waiting ⟨0x0103, 9⟩).port.pending = some ⟨0x0103, 9⟩) := by decide

theorem witness_AssemblerCoversCommands :
    assemble .SET_MODE (.number 2) = some (.setMode 0b10) ∧ assemble .DEMUX_INIT (.number 127) = some (.demuxInit 127) ∧
    (Instr.demuxFeed 0xFFFFFFFF).wellFormed = true ∧
    (assemble .REQUEST_STOP_ON_FLUSH (.boolName true) = some (.requestStopOnFlush true) ∧
      assemble .SET_MODE (.modeName .software) = some (.setMode 0b01) ∧ 127 < 128 ∧ 0xFFFFFFFF < 2 ^ 32) ∧
    (Mnemonic.READ_ONE ≠ .SET_MODE ∧ Mnemonic.READ_ONE ≠ .REQUEST_STOP_ON_FLUSH ∧ Mnemonic.READ_ONE ≠ .DEMUX_INIT ∧
      Mnemonic.READ_ONE ≠ .DEMUX_FEED ∧ assemble .READ_ONE .absent = some .readOne) := by decide

theorem witness_StepRunsDecodedCommand :
    (waiting ⟨0x2200, 5⟩).resetIn = false ∧ (waiting ⟨0x2200, 5⟩).port.pending = some ⟨0x2200, 5⟩ ∧
    decode ⟨0x2200, 5⟩ = .legal .demuxStatus := by decide

theorem witness_FlushControlWordsBitByBit :
    (12 < 32 ∧ (encodeFFCRsof 0 true).getLsbD 12 = true) ∧ (6 < 32 ∧ (encodeFFCRsof 0x40 true).getLsbD 6 = false) ∧
    (31 < 32 ∧ (encodeFFCRflush 0x80000000).getLsbD 31 = true) := by decide

theorem witness_ReservedBitsAreIgnored :
    (0xFFFFFFE8 : Word32) &&& 0x17 = (0 : Word32) &&& 0x17 ∧ (0xFFFFEFBF : Word32) &&& 0x1040 = (0 : Word32) &&& 0x1040 := by
  decide

theorem witness_SetModeWritesModeField :
    (3 ≤ (3 : BitVec 8).toNat ∧ 3 ≤ (255 : BitVec 8).toNat) ∧ ((0b00 : Bits2) ≠ 0b11 ∧ (0b10 : Bits2) ≠ 0b11) ∧
    threeEnds (inPhase .disabled) 1 ∧ bothComplete (inPhase .disabled) 1 ∧ bothComplete (inPhase .armed) 1 ∧
    secondFails (inPhase .disabled) 1 true ∧ secondFails (inPhase .disabled) 1 false := by decide

theorem witness_EnableCaptureArms :
    threeEnds Controller.reset 0 ∧ threeEnds (inPhase .disabled) 0 ∧ threeEnds (inPhase .drained) 0 := by decide

theorem witness_DisableCaptureEndsSession :
    threeEnds Controller.reset 0 ∧ threeEnds (requested .stopping) 0 ∧ threeEnds (requested .drained) 0 := by decide

/-- Each clause of READ_ONE: sentinel with and without ready, a word in Stopping below, at and above the limit, a word in
Drained, and a word in another phase. -/
theorem witness_ReadOneDrains :
    threeEnds ready 0xFFFFFFFF ∧ threeEnds (inPhase .stopping) 0xFFFFFFFF ∧
    threeEnds { inPhase .stopping with drainedWords := 4127 } 0xFFFFFFFE ∧
    threeEnds { inPhase .stopping with drainedWords := 4128 } 0xFFFFFFFE ∧
    (4127 + 1 ≤ base.params.drainLimit ∧ 4128 + 1 > base.params.drainLimit) ∧
    threeEnds (inPhase .drained) 0 ∧ threeEnds (inPhase .drained) 0xFFFFFFFF ∧ threeEnds (inPhase .armed) 7 ∧
    (at_ (inPhase .armed) [good 7]).readValue .RRD = 7 := by decide

theorem witness_IsFullReportsBitZero :
    threeEnds (inPhase .armed) 1 ∧ threeEnds (inPhase .armed) 0 ∧ threeEnds (inPhase .full) 1 := by decide

theorem witness_IsEmptyReportsBitFour : threeEnds ready 0x10 ∧ threeEnds ready 0x0F := by decide

theorem witness_IsReadyReportsBitTwo :
    threeEnds (inPhase .stopping) 4 ∧ threeEnds ready 0 ∧ threeEnds (inPhase .drained) 4 := by decide

theorem witness_IsTriggeredReportsBitOne : threeEnds ready 2 ∧ threeEnds (inPhase .disabled) 8 := by decide

/-- A lawful device whose last write of Control was v. -/
def ctlWritten (v : Word32) : State := { base with dev := { Device.powerUp with ctlW := some v } }

/-- Capture disabled before any write of Control, and by a Control word whose bit 0 is 0. -/
theorem witness_FillLevelCountsBytes :
    threeEnds ready 0xFFFFFFFF ∧ (base.dev.lawful = true ∧ base.dev.captureEnabled = false) ∧
    ((ctlWritten 0xFFFFFFFE).dev.lawful = true ∧ (ctlWritten 0xFFFFFFFE).dev.captureEnabled = false) ∧
    (ctlWritten 1).dev.captureEnabled = true := by decide

theorem witness_FifoSizeCountsBytes : threeEnds ready 0 ∧ base.dev.lawful = true := by decide

theorem witness_RequestStopOnFlushSetsBitTwelve :
    2 ≤ (2 : BitVec 8).toNat ∧ threeEnds (inPhase .armed) 0x41 ∧ bothComplete (inPhase .full) 0x41 ∧
    bothComplete (inPhase .stopping) 0x1000 ∧ bothComplete (inPhase .disabled) 0 ∧
    secondFails (inPhase .armed) 0x41 true ∧ secondFails (inPhase .armed) 0x41 false := by decide

/-- Each clause of TRIGGER_MANUAL_FLUSH: not observed, observed, not requested, and another phase. -/
theorem witness_TriggerManualFlushChecksThenFlushes :
    threeEnds (requested .full) 0 ∧ bothComplete (requested .armed) 0x1000 ∧ bothComplete (inPhase .armed) 0 ∧
    bothComplete (requested .stopping) 0 ∧ secondFails (requested .full) 0x1000 true ∧
    secondFails (requested .full) 0x1000 false ∧
    (at_ (requested .full) [good 0]).readValue .FFCR = 0 ∧
    (at_ (requested .armed) [good 0x1000]).readValue .FFCR = 0x1000 := by decide

theorem witness_DemuxFeedHoldsOrParses :
    (1 : BitVec 8) ≠ 0 ∧ (demuxAt 0 []).X.fwords.length ≠ 3 ∧ (demuxAt 0 [1, 2]).X.fwords.length ≠ 3 ∧
    (demuxAt 0 [1, 2, 3]).X.fwords.length = 3 := by decide

theorem witness_DemuxStatusReadsOut : (128 : BitVec 8) ≠ 0 ∧ (1 : BitVec 8) ≠ 0 := by decide

theorem witness_GetStateReadsOut : (128 : BitVec 8) ≠ 0 ∧ (1 : BitVec 8) ≠ 0 := by decide

/-- A state with a fault latched. -/
def latched : State := at_ { inPhase .armed with fault := .transport .STS .R } []

theorem witness_LatchedFaultRefusesControllerOnly :
    (Instr.isFull.execUnit = .controller ∧ Instr.isFull.wellFormed = true ∧ latched.C.fault ≠ .noFault) ∧
    (Instr.demuxStatus.execUnit ≠ .controller ∧ Instr.getState.execUnit ≠ .controller) ∧
    exec .getState latched = .next (execState .getState latched) := ⟨by decide, by decide, rfl⟩

theorem witness_LatchedFaultStays :
    latched.C.fault ≠ .noFault ∧ latched.resetIn = false ∧
    (∃ t, step { latched with port := { pending := some ⟨0x0500, 0⟩, rsp := none } } = .next t) :=
  ⟨by decide, rfl, _, rfl⟩

theorem witness_LifecycleOkIsSticky :
    ∃ t, (waiting ⟨0x3000, 0⟩).resetIn = false ∧ step (waiting ⟨0x3000, 0⟩) = .next t ∧ t.C.lifecycleOk = true :=
  ⟨_, rfl, rfl, rfl⟩

/-- Every kind of error is answered somewhere. -/
theorem witness_ErrorsArePrecise :
    rspOf (.setMode 0b11) base = some (.err (.illegalCommand 0x0103)) ∧
    rspOf .isFull latched = some (.err (.sessionAborted (.transport .STS .R))) ∧
    rspOf .isFull (at_ (inPhase .armed) [bad false]) = some (.err (.transportError .STS .R)) ∧
    rspOf .triggerManualFlush (at_ (requested .armed) [good 0]) = some (.err (.protocolViolation .sofNotObserved)) ∧
    rspOf .readOne (at_ (inPhase .drained) [good 0]) = some (.err (.protocolViolation .dataAfterDrained)) ∧
    rspOf .readOne (at_ { inPhase .stopping with drainedWords := 4128 } [good 0]) =
      some (.err (.protocolViolation .drainLimit)) := by decide

theorem witness_ResetSetsBlockOnly : ({ latched with resetIn := true } : State).resetIn = true := rfl

/-- Each row of the table that changes the phase is taken somewhere. -/
theorem witness_PhaseChangesAreTheTable :
    (ctlOf .enableCapture (at_ (inPhase .disabled) [good 0])).phase = .armed ∧
    (ctlOf .isFull (at_ (inPhase .armed) [good 1])).phase = .full ∧
    (ctlOf .triggerManualFlush (at_ (requested .armed) [good 0x1000, good 0])).phase = .stopping ∧
    (ctlOf .readOne (at_ ready [good 0xFFFFFFFF])).phase = .drained ∧
    (ctlOf .disableCapture (at_ (inPhase .drained) [good 0])).phase = .disabled := by decide

theorem witness_StoppingNeedsStopSequence :
    (at_ (requested .full) [good 0x1000, good 0]).C.phase ≠ .stopping ∧
    (execState .triggerManualFlush (at_ (requested .full) [good 0x1000, good 0])).C.phase = .stopping := by decide

theorem witness_ReadyLastMeansReadyJustSeen :
    (Instr.isReady.wellFormed = true ∧ Instr.isReady.execUnit = .controller ∧
      (ctlOf .isReady (at_ (inPhase .stopping) [good 4])).fault = .noFault ∧
      (ctlOf .isReady (at_ (inPhase .stopping) [good 4])).readyLast = true) ∧
    (Instr.getState.wellFormed = true ∧ Instr.getState.execUnit ≠ .controller ∧
      (ctlOf .getState (at_ ready [])).fault = .noFault) := by decide

/-- The invariant holds at its boundary, the last word of the drain limit and three words held, and one word past the
limit with the fault latched. -/
theorem witness_StepKeepsStateInvariant :
    ({ at_ { inPhase .stopping with drainedWords := 4128 } [good 7] with
        X := { tag := 0, fwords := [1, 2, 3] }, port := { pending := some ⟨0x0400, 0⟩, rsp := none } } : State).Inv ∧
    ({ at_ { inPhase .stopping with drainedWords := 4129, fault := .protocol .drainLimit } [] with
        port := { pending := some ⟨0x0400, 0⟩, rsp := none } } : State).Inv ∧
    (∃ t, step { at_ { inPhase .stopping with drainedWords := 4128 } [good 7] with
        X := { tag := 0, fwords := [1, 2, 3] }, port := { pending := some ⟨0x0400, 0⟩, rsp := none } } = .next t) :=
  ⟨⟨by decide, by decide, by decide, by decide⟩, ⟨by decide, by decide, by decide, by decide⟩, _, rfl⟩

/-- The boundary of R204: a full B meets the invariant, and its PUSH answers next under either choice of the host. -/
theorem witness_StepKeepsStateInvariant_full :
    (fullHost [.goOn [] 0]).Inv ∧ (∃ t, step (fullHost [.goOn [] 0]) = .next t) ∧
    (fullHost [.stop]).Inv ∧ (∃ t, step (fullHost [.stop]) = .next t) :=
  ⟨⟨by decide, by decide, by decide, by decide⟩, ⟨_, rfl⟩, ⟨by decide, by decide, by decide, by decide⟩, _, rfl⟩

/-- A state in Stopping whose last transaction showed ready. -/
def readySeen : State := { at_ ready [good 0xFFFFFFFF] with bus := [.read .STS 0x100C .stopping (some 4)] }

/-- A state in Drained after the premise of the drain contract was met. -/
def exhausted : State :=
  { at_ (inPhase .drained) [good 0xFFFFFFFF] with
    bus := [.read .STS 0x100C .stopping (some 4), .read .RRD 0x1010 .stopping (some 0xFFFFFFFF)] }

theorem witness_StepKeepsReadyWitness :
    readyWitnessed readySeen ∧ readySeen.C.fault = .noFault ∧ readySeen.C.readyLast = true ∧
    (∃ t, step { readySeen with port := { pending := some ⟨0x0400, 0⟩, rsp := none } } = .next t) :=
  ⟨by decide, by decide, by decide, _, rfl⟩

theorem witness_DrainConclusionMeetsContractPremise :
    (readyWitnessed readySeen ∧ readySeen.C.phase ≠ .drained ∧ (execState .readOne readySeen).C.phase = .drained) ∧
    (drainWatch exhausted.bus = .exhausted ∧ Instr.readOne ≠ .enableCapture ∧
      exec .readOne exhausted = .next (execState .readOne exhausted)) :=
  ⟨by decide, by decide, by decide, exec_eq_next _ _⟩

/-- The contract holds of a run that goes on to read the sentinel, and fails of one that reads a word. -/
theorem witness_ContractExcludesLaterWords :
    drainWatch exhausted.bus = .exhausted ∧ DrainContract (execState .readOne exhausted).bus = true ∧
    exec .readOne exhausted = .next (execState .readOne exhausted) ∧
    DrainContract (execState .readOne { exhausted with env := { plan := [good 0], count := 0 } }).bus = false :=
  ⟨by decide, by decide, exec_eq_next _ _, by decide⟩

/-- A lawful device whose FFCR was last written with bit 12 set, and a request that counts. -/
def onRecord (p : Phase) (plan : List Draw) : State :=
  { at_ (requested p) plan with dev := { Device.powerUp with ffcrW := some 0x1000 } }

theorem witness_StepKeepsRequestOnRecord :
    requestOnRecord (onRecord .full [good 0, good 0]) ∧ (onRecord .full [good 0, good 0]).dev.lawful = true ∧
    (onRecord .full [good 0, good 0]).C.phase.capturing = true ∧ (onRecord .full [good 0, good 0]).C.sofReq = true ∧
    (∃ t, step { onRecord .full [good 0, good 0] with port := { pending := some ⟨0x0C00, 0⟩, rsp := none } } = .next t) :=
  ⟨fun _ _ _ _ => ⟨_, rfl, rfl⟩, rfl, rfl, rfl, _, rfl⟩

/-- The draw has bit 12 clear; the law makes the read show it set. -/
theorem witness_LawfulDeviceObservesRequest :
    requestOnRecord (onRecord .armed [good 0, good 0]) ∧ (onRecord .armed [good 0, good 0]).dev.lawful = true ∧
    exec .triggerManualFlush (onRecord .armed [good 0, good 0]) =
      .next (execState .triggerManualFlush (onRecord .armed [good 0, good 0])) ∧
    rspOf .triggerManualFlush (onRecord .armed [good 0, good 0]) = some (.ok .unit) :=
  ⟨fun _ _ _ _ => ⟨_, rfl, rfl⟩, rfl, exec_eq_next _ _, by decide⟩

theorem witness_StopSequenceEntersStopping :
    let s := at_ (inPhase .armed) [good 0x41, good 0, good 0, good 0]
    s.dev.lawful = true ∧ s.C.fault = .noFault ∧ (s.C.phase = .armed ∨ s.C.phase = .full) ∧ firstOk s ∧ secondOk s ∧
    s.env.advance.advance.next.ok = true ∧ s.env.advance.advance.advance.next.ok = true ∧
    exec (.requestStopOnFlush true) s = .next (execState (.requestStopOnFlush true) s) :=
  ⟨by decide, by decide, by decide, by decide, by decide, by decide, by decide, exec_eq_next _ _⟩

theorem witness_SessionEndsWellFromDrained :
    let s := at_ (inPhase .drained) [good 0]
    (s.C.phase = .drained ∧ s.C.fault = .noFault ∧ s.C.lifecycleOk = true ∧ firstOk s) ∧
    exec .disableCapture s = .next (execState .disableCapture s) ∧
    sessionEndsWell .disableCapture s (execState .disableCapture s) :=
  ⟨by decide, exec_eq_next _ _, by decide⟩

theorem witness_DrainedStreamIsBounded :
    let s := at_ { inPhase .stopping with drainedWords := 4127 } [good 0xFFFFFFFE]
    exec .readOne s = .next (execState .readOne s) ∧ drainedWord .readOne s (execState .readOne s) = some 0xFFFFFFFE :=
  ⟨exec_eq_next _ _, by decide⟩

theorem witness_TransactionsAreFewAndMapped :
    let s := at_ (inPhase .disabled) [good 0, good 0]
    exec (.setMode 0b01) s = .next (execState (.setMode 0b01) s) ∧ (busOf (.setMode 0b01) s).length = 2 ∧
    Instr.demuxStatus.execUnit ≠ .controller := ⟨exec_eq_next _ _, by decide, by decide⟩

theorem witness_ReadModifyWriteIsAdjacent :
    let s := at_ (inPhase .full) [good 0x41, bad false]
    exec (.requestStopOnFlush true) s = .next (execState (.requestStopOnFlush true) s) ∧
    (execState (.requestStopOnFlush true) s).bus =
      s.bus ++ [.read .FFCR 0x1304 .full (some 0x41), .write .FFCR 0x1304 0x1001 false false] :=
  ⟨exec_eq_next _ _, by decide⟩

/-- The base just below the top of the transport's address space. -/
theorem witness_AddressesAreAligned :
    base.params.wf ∧ (Params.mk 0xFFFFFCF8 32 0 0).wf ∧ ¬ (Params.mk 0xFFFFFCFC 32 0 0).wf ∧
    (∃ t, step (waiting ⟨0x3000, 0⟩) = .next t) := ⟨by decide, by decide, by decide, _, rfl⟩

theorem witness_OnlyTriggerRequestsFlush :
    let s := at_ (requested .full) [good 0x1000, good 0]
    let es : List BusEvent := [.read .FFCR 0x1304 .full (some 0x1000), .write .FFCR 0x1304 0x1040 true true]
    exec .triggerManualFlush s = .next (execState .triggerManualFlush s) ∧
    (execState .triggerManualFlush s).bus = s.bus ++ es ∧ (∃ e ∈ es, e.requestsFlush = true) :=
  ⟨exec_eq_next _ _, by decide, by decide⟩

theorem witness_CaptureSwitchIsIdempotent :
    let s := at_ (inPhase .disabled) [good 0, good 0]
    s.C.fault = .noFault ∧ firstOk s ∧ secondOk s ∧ exec .enableCapture s = .next (execState .enableCapture s) ∧
    exec .enableCapture (execState .enableCapture s) = .next (execState .enableCapture (execState .enableCapture s)) :=
  ⟨by decide, by decide, by decide, exec_eq_next _ _, exec_eq_next _ _⟩

theorem witness_WrittenFieldsReadBack :
    let s := at_ (inPhase .disabled) [good 0, good 0, good 3]
    (s.dev.lawful = true ∧ exec (.setMode 0b10) s = .next (execState (.setMode 0b10) s) ∧
      rspOf (.setMode 0b10) s = some (.ok .unit)) ∧
    (exec (.requestStopOnFlush true) s = .next (execState (.requestStopOnFlush true) s) ∧
      rspOf (.requestStopOnFlush true) s = some (.ok .unit)) :=
  ⟨⟨by decide, exec_eq_next _ _, by decide⟩, exec_eq_next _ _, by decide⟩

theorem witness_CommandsKeepTheirFrame :
    (Instr.isFull.execUnit = .controller ∧ Instr.demuxInit 5 ≠ .demuxStatus ∧ Instr.demuxStatus.execUnit ≠ .controller) ∧
    exec .isFull base = .next (execState .isFull base) ∧ exec .demuxStatus base = .next (execState .demuxStatus base) :=
  ⟨by decide, exec_eq_next _ _, exec_eq_next _ _⟩

theorem witness_UnitsDoNotInterfere :
    ((Instr.demuxFeed 1).execUnit = .demultiplexer ∧ Instr.readOne.execUnit = .controller) ∧
    exec (.demuxFeed 1) { base with C := latched.C } = .next (execState (.demuxFeed 1) { base with C := latched.C }) ∧
    exec .readOne { base with X := { tag := 5, fwords := [1] } } =
      .next (execState .readOne { base with X := { tag := 5, fwords := [1] } }) :=
  ⟨by decide, exec_eq_next _ _, exec_eq_next _ _⟩

/-- Frame F1 of V-DMX-1, described. -/
def frameF1 : FrameDesc where
  pairs := [(.newTag 1 false, 0x41), (.data 0x42, 0x43), (.data 0x45, 0x46), (.newTag 2 true, 0x47), (.data 0x48, 0x49),
    (.newTag 0 false, 0x4B), (.newTag 1 false, 0x4D)]
  last := .newTag 2 false

/-- The description has the words of V-DMX-1. -/
theorem witness_FrameRoundTrip :
    frameF1.pairs.length = 7 ∧ frameF1.words = [0x43424103, 0x47054644, 0x4B014948, 0x0C054D03] ∧
    (frameF1.meaning 0).2 = 2 := by decide

theorem witness_StreamRoundTrip :
    (∀ d ∈ [frameF1, frameF1], d.pairs.length = 7) ∧ (demuxAt 2 []).X.fwords = [] := by decide

/-- The PUSH clauses' premises on B, at the capacity's two sides (R204): one place left, and none, with each choice. -/
theorem witness_HostLinesActOnHostRecord_push :
    (let s := { fullHost [] with host := { (fullHost []).host with buf := List.replicate 31 0 } }
     runsLine s .push ∧ s.host.last = some (.ok (.optWord (some 7))) ∧
       s.host.buf.length < s.params.rszWords.toNat + 32) ∧
    (∀ c, runsLine (fullHost [c]) .push ∧ (fullHost [c]).host.last = some (.ok (.optWord (some 7))) ∧
      (fullHost [c]).params.rszWords.toNat + 32 ≤ (fullHost [c]).host.buf.length ∧ (fullHost [c]).host.nextFull = c) :=
  ⟨⟨⟨rfl, rfl, rfl, rfl, rfl, _, rfl⟩, rfl, by decide⟩,
    fun _ => ⟨⟨rfl, rfl, rfl, rfl, rfl, _, rfl⟩, rfl, Nat.le_refl 32, rfl⟩⟩

/-- Each clause: a step of the host, PUSH, GOTO, IF with a condition that holds and one that does not, END, a stopped
script, and FEED B with three words held, so that the fed word completes a frame. The premises of the PUSH clauses on B
are met in witness_HostLinesActOnHostRecord_push. -/
theorem witness_HostLinesActOnHostRecord :
    (∃ t, (hosting [⟨none, .resetBlock⟩] HostState.idle).resetIn = false ∧
      (hosting [⟨none, .resetBlock⟩] HostState.idle).port.pending = none ∧
      step (hosting [⟨none, .resetBlock⟩] HostState.idle) = .next t) ∧
    (runsLine (hosting [⟨none, .push⟩] { HostState.idle with last := some (.ok (.optWord (some 0))) }) .push) ∧
    (runsLine (hosting [⟨none, .goto 7⟩, ⟨some 7, .endScript⟩] HostState.idle) (.goto 7) ∧
      namesLine [⟨none, .goto 7⟩, ⟨some 7, .endScript⟩] 7 1) ∧
    (runsLine (hosting [⟨some 7, .ifGoto .isNone 7⟩] { HostState.idle with last := some (.ok (.optWord none)) })
        (.ifGoto .isNone 7) ∧
      lastMeets { HostState.idle with last := some (.ok (.optWord none)) } .isNone ∧
      namesLine [⟨some 7, .ifGoto .isNone 7⟩] 7 0 ∧ ¬ lastMeets HostState.idle .isNone ∧
      lastMeets { HostState.idle with extPlan := [true] } .ext) ∧
    (runsLine (hosting [⟨none, .endScript⟩] HostState.idle) .endScript) ∧
    ((hosting [] { HostState.idle with status := .ended }).host.status ≠ .running) ∧
    (runsLine { hosting [⟨none, .feedB⟩] { HostState.idle with buf := [4] } with X := { tag := 0, fwords := [1, 2, 3] } }
      .feedB) := by
  refine ⟨⟨_, rfl, rfl, rfl⟩, ⟨rfl, rfl, rfl, rfl, rfl, _, rfl⟩,
    ⟨⟨rfl, rfl, rfl, rfl, rfl, _, rfl⟩, ⟨_, rfl⟩, fun q hq l h => ?_⟩,
    ⟨⟨rfl, rfl, rfl, rfl, rfl, _, rfl⟩, rfl, ⟨⟨_, rfl⟩, fun q hq => absurd hq (Nat.not_lt_zero q)⟩, by simp [lastMeets,
      HostState.idle], rfl⟩, ⟨rfl, rfl, rfl, rfl, rfl, _, rfl⟩, by decide, ⟨rfl, rfl, rfl, rfl, rfl, _, rfl⟩⟩
  obtain rfl : q = 0 := by omega
  simp at h

/-- A command line that fails, with and without a line that handles the error. -/
theorem witness_CommandLineRoundTrip :
    let s := hosting [commandLine (some 1) .demuxStatus, ⟨none, .ifGoto .isErr 1⟩] HostState.idle
    s.resetIn = false ∧ s.port.pending = none ∧ s.host.awaiting = .idle ∧ s.host.status = .running ∧ s.host.feed = [] ∧
    s.host.script[s.host.pos]? = some ⟨some 1, .issue (encode .demuxStatus)⟩ ∧ Instr.demuxStatus.wellFormed = true ∧
    (∃ t u, step s = .next t ∧ step t = .next u) ∧ handlesErr s.host.script (s.host.pos + 1) = true ∧
    handlesErr s.host.script s.host.pos = false :=
  ⟨rfl, rfl, rfl, rfl, rfl, rfl, rfl, ⟨_, _, rfl, rfl⟩, rfl, rfl⟩

end Sys2Proof.Tests
end

section
/-! PROOFS. What a controller command leaves unchanged (spec/10_state.md R39), composed along its body: Load, Store and
the lifecycle updates each keep the frame, so every body and its response do. -/

namespace Sys2Proof.Machine

/-- The register a command writes, if it writes one (spec/41_controller_ops.md R131 to R142). -/
def writtenReg : Instr → Option RegName
  | .setMode _ => some .MODE
  | .enableCapture => some .CTL
  | .disableCapture => some .CTL
  | .requestStopOnFlush _ => some .FFCR
  | .triggerManualFlush => some .FFCR
  | _ => none

theorem writtenReg_eq_MODE {i : Instr} : writtenReg i = some .MODE ↔ ∃ mm, i = .setMode mm := by
  cases i <;> simp [writtenReg]

theorem writtenReg_eq_CTL {i : Instr} : writtenReg i = some .CTL ↔ i = .enableCapture ∨ i = .disableCapture := by
  cases i <;> simp [writtenReg]

theorem writtenReg_eq_FFCR {i : Instr} :
    writtenReg i = some .FFCR ↔ (∃ b, i = .requestStopOnFlush b) ∨ i = .triggerManualFlush := by
  cases i <;> simp [writtenReg]

/-- What a controller command that writes `w` alone leaves as it was. -/
structure ControllerFrame (w : Option RegName) (s t : State) : Prop where
  params : t.params = s.params
  host : t.host = s.host
  resetIn : t.resetIn = s.resetIn
  pending : t.port.pending = s.port.pending
  X : t.X = s.X
  lawful : t.dev.lawful = s.dev.lawful
  modeW : w ≠ some .MODE → t.dev.modeW = s.dev.modeW
  ctlW : w ≠ some .CTL → t.dev.ctlW = s.dev.ctlW
  ffcrW : w ≠ some .FFCR → t.dev.ffcrW = s.dev.ffcrW

theorem ControllerFrame.trans {w : Option RegName} {s t u : State} (h : ControllerFrame w s t)
    (k : ControllerFrame w t u) : ControllerFrame w s u where
  params := k.params.trans h.params
  host := k.host.trans h.host
  resetIn := k.resetIn.trans h.resetIn
  pending := k.pending.trans h.pending
  X := k.X.trans h.X
  lawful := k.lawful.trans h.lawful
  modeW hw := (k.modeW hw).trans (h.modeW hw)
  ctlW hw := (k.ctlW hw).trans (h.ctlW hw)
  ffcrW hw := (k.ffcrW hw).trans (h.ffcrW hw)

/-- An update of `C`, the environment, the bus history and the response alone is within every frame. -/
theorem ControllerFrame.of_device_kept (w : Option RegName) (s : State) (c : Controller) (e : Env) (b : List BusEvent)
    (r : Option Response) :
    ControllerFrame w s { s with C := c, env := e, bus := b, port := { s.port with rsp := r } } :=
  ⟨rfl, rfl, rfl, rfl, rfl, rfl, fun _ => rfl, fun _ => rfl, fun _ => rfl⟩

@[simp] theorem written_lawful (d : Device) (reg : RegName) (v : Word32) : (d.written reg v).lawful = d.lawful := by
  cases reg <;> rfl

theorem written_modeW_of_ne {reg : RegName} (h : reg ≠ .MODE) (d : Device) (v : Word32) :
    (d.written reg v).modeW = d.modeW := by
  cases reg with
  | MODE => exact absurd rfl h
  | _ => rfl

theorem written_ctlW_of_ne {reg : RegName} (h : reg ≠ .CTL) (d : Device) (v : Word32) :
    (d.written reg v).ctlW = d.ctlW := by
  cases reg with
  | CTL => exact absurd rfl h
  | _ => rfl

theorem written_ffcrW_of_ne {reg : RegName} (h : reg ≠ .FFCR) (d : Device) (v : Word32) :
    (d.written reg v).ffcrW = d.ffcrW := by
  cases reg with
  | FFCR => exact absurd rfl h
  | _ => rfl

/-- A write transaction, whatever became of it, is within the frame of its register (R76). -/
theorem afterWrite_frame (reg : RegName) (v : Word32) (ok took : Bool) (s : State) :
    ControllerFrame (some reg) s (afterWrite reg v ok took s) := by
  cases took
  · exact .of_device_kept _ s _ _ _ _
  · exact ⟨rfl, rfl, rfl, rfl, rfl, written_lawful _ _ _,
      fun h => written_modeW_of_ne (by simpa using h) _ _, fun h => written_ctlW_of_ne (by simpa using h) _ _,
      fun h => written_ffcrW_of_ne (by simpa using h) _ _⟩

/-- However a part of a body started in `s` ends, it has kept the frame. -/
def KeepsFrame {α : Type} (w : Option RegName) (s : State) : Result α → Prop
  | .done _ t => ControllerFrame w s t
  | .raised _ t => ControllerFrame w s t

theorem KeepsFrame.andThen {α β : Type} {w : Option RegName} {s : State} {r : Result α} {f : α → State → Result β}
    (hr : KeepsFrame w s r) (hf : ∀ v t, KeepsFrame w t (f v t)) : KeepsFrame w s (r.andThen f) := by
  cases r with
  | raised e t => exact hr
  | done v t =>
    have hk := hf v t
    rw [andThen_done]
    cases hfv : f v t with
    | done v' u => rw [hfv] at hk; exact ControllerFrame.trans hr hk
    | raised e u => rw [hfv] at hk; exact ControllerFrame.trans hr hk

theorem done_keepsFrame {α : Type} (w : Option RegName) (v : α) (s : State) : KeepsFrame w s (.done v s) :=
  ControllerFrame.of_device_kept w s _ _ _ _

theorem done_updateC_keepsFrame {α : Type} (w : Option RegName) (v : α) (g : Controller → Controller) (s : State) :
    KeepsFrame w s (.done v (s.updateC g)) :=
  ControllerFrame.of_device_kept w s _ _ _ _

theorem load_keepsFrame (w : Option RegName) (reg : RegName) (s : State) : KeepsFrame w s (load reg s) := by
  rcases load_cases reg s with ⟨-, e⟩ | ⟨-, e⟩ <;> rw [e] <;> exact ControllerFrame.of_device_kept w s _ _ _ _

theorem store_keepsFrame (reg : RegName) (v : Word32) (s : State) : KeepsFrame (some reg) s (store reg v s) := by
  rcases store_cases reg v s with ⟨-, e⟩ | ⟨-, e⟩ <;> rw [e]
  · exact afterWrite_frame reg v true true s
  · exact (afterWrite_frame reg v false _ s).trans (.of_device_kept _ _ _ _ _ _)

theorem rmw_keepsFrame (reg : RegName) (f : Word32 → Word32) (s : State) : KeepsFrame (some reg) s (rmw reg f s) :=
  (load_keepsFrame _ reg s).andThen fun v t => store_keepsFrame reg (f v) t

theorem lifecycleReadOne_keepsFrame (w : Option RegName) (r : Option Word32) (s : State) :
    KeepsFrame w s (lifecycleReadOne r s) := by
  rw [lifecycleReadOne_eq]
  split_ifs <;> exact ControllerFrame.of_device_kept w s _ _ _ _

theorem lifecycleTriggerCheck_keepsFrame (w : Option RegName) (v : Word32) (s : State) :
    KeepsFrame w s (lifecycleTriggerCheck v s) := by
  rw [lifecycleTriggerCheck_eq]
  split_ifs <;> exact ControllerFrame.of_device_kept w s _ _ _ _

/-- A body that is one load and a pure end keeps every frame. -/
theorem loadBody_keepsFrame (w : Option RegName) (reg : RegName) (f : Word32 → RspValue)
    (g : Word32 → Controller → Controller) (s : State) :
    KeepsFrame w s ((load reg s).andThen fun v t => .done (f v) (t.updateC (g v))) :=
  (load_keepsFrame w reg s).andThen fun v t => done_updateC_keepsFrame w (f v) (g v) t

/-- The controller commands with their bodies (R131 to R142). -/
inductive HasBody : Instr → (State → Result RspValue) → Prop where
  | setMode (mm : Bits2) : HasBody (.setMode mm) (setModeBody mm)
  | enableCapture : HasBody .enableCapture enableCaptureBody
  | disableCapture : HasBody .disableCapture disableCaptureBody
  | readOne : HasBody .readOne readOneBody
  | isFull : HasBody .isFull isFullBody
  | isEmpty : HasBody .isEmpty isEmptyBody
  | isReady : HasBody .isReady isReadyBody
  | isTriggered : HasBody .isTriggered isTriggeredBody
  | fillLevel : HasBody .fillLevel fillLevelBody
  | fifoSize : HasBody .fifoSize fifoSizeBody
  | requestStopOnFlush (b : Bool) : HasBody (.requestStopOnFlush b) (requestStopOnFlushBody b)
  | triggerManualFlush : HasBody .triggerManualFlush triggerManualFlushBody

/-- A controller command is its body under the wrapper of R130. -/
theorem exec_eq_runController {i : Instr} (hu : i.execUnit = .controller) :
    ∃ body, HasBody i body ∧ ∀ s, exec i s = .next (runController i body s) := by
  cases i with
  | setMode mm => exact ⟨_, .setMode mm, fun _ => rfl⟩
  | enableCapture => exact ⟨_, .enableCapture, fun _ => rfl⟩
  | disableCapture => exact ⟨_, .disableCapture, fun _ => rfl⟩
  | readOne => exact ⟨_, .readOne, fun _ => rfl⟩
  | isFull => exact ⟨_, .isFull, fun _ => rfl⟩
  | isEmpty => exact ⟨_, .isEmpty, fun _ => rfl⟩
  | isReady => exact ⟨_, .isReady, fun _ => rfl⟩
  | isTriggered => exact ⟨_, .isTriggered, fun _ => rfl⟩
  | fillLevel => exact ⟨_, .fillLevel, fun _ => rfl⟩
  | fifoSize => exact ⟨_, .fifoSize, fun _ => rfl⟩
  | requestStopOnFlush b => exact ⟨_, .requestStopOnFlush b, fun _ => rfl⟩
  | triggerManualFlush => exact ⟨_, .triggerManualFlush, fun _ => rfl⟩
  | demuxInit t => cases hu
  | demuxFeed w => cases hu
  | demuxStatus => cases hu
  | getState => cases hu

theorem HasBody.keepsFrame {i : Instr} {body : State → Result RspValue} (h : HasBody i body) (s : State) :
    KeepsFrame (writtenReg i) s (body s) := by
  cases h with
  | setMode mm => exact (rmw_keepsFrame .MODE _ s).andThen fun _ t => done_updateC_keepsFrame _ _ _ t
  | enableCapture => exact (store_keepsFrame .CTL _ s).andThen fun _ t => done_updateC_keepsFrame _ _ _ t
  | disableCapture => exact (store_keepsFrame .CTL _ s).andThen fun _ t => done_updateC_keepsFrame _ _ _ t
  | readOne =>
    exact (load_keepsFrame _ .RRD s).andThen fun v t =>
      (lifecycleReadOne_keepsFrame _ (decodeRRD v) t).andThen fun _ u => done_keepsFrame _ _ u
  | isFull => exact loadBody_keepsFrame _ .STS _ (fun v => lifecycleIsFull (decodeStatus v).full) s
  | isEmpty => exact loadBody_keepsFrame _ .STS _ (fun _ => lifecycleQuery) s
  | isReady => exact loadBody_keepsFrame _ .STS _ (fun v => lifecycleIsReady (decodeStatus v).ready) s
  | isTriggered => exact loadBody_keepsFrame _ .STS _ (fun _ => lifecycleQuery) s
  | fillLevel => exact loadBody_keepsFrame _ .CFILL _ (fun _ => lifecycleQuery) s
  | fifoSize => exact loadBody_keepsFrame _ .SIZE _ (fun _ => lifecycleQuery) s
  | requestStopOnFlush b => exact (rmw_keepsFrame .FFCR _ s).andThen fun _ t => done_updateC_keepsFrame _ _ _ t
  | triggerManualFlush =>
    exact (load_keepsFrame _ .FFCR s).andThen fun v t =>
      (lifecycleTriggerCheck_keepsFrame _ v t).andThen fun _ u =>
        (store_keepsFrame .FFCR _ u).andThen fun _ x => done_updateC_keepsFrame _ _ _ x

theorem respond_frame (w : Option RegName) (r : Response) (s : State) : ControllerFrame w s (s.respond r) :=
  .of_device_kept w s _ _ _ _

/-- The wrapper responds and keeps what the body keeps (R130). -/
theorem runController_frame {w : Option RegName} {i : Instr} {body : State → Result RspValue} {s : State}
    (h : KeepsFrame w s (body s)) : ControllerFrame w s (runController i body s) := by
  rw [runController_eq]
  split_ifs
  · exact respond_frame w _ s
  · cases hb : body s with
    | done v t => rw [hb] at h; exact ControllerFrame.trans h (respond_frame w _ t)
    | raised e t => rw [hb] at h; exact ControllerFrame.trans h (respond_frame w _ t)
  · exact respond_frame w _ s

/-- What every controller command leaves unchanged (R39). -/
theorem exec_controllerFrame {i : Instr} {s t : State} (hu : i.execUnit = .controller) (h : exec i s = .next t) :
    ControllerFrame (writtenReg i) s t := by
  obtain ⟨body, hb, he⟩ := exec_eq_runController hu
  cases (he s).symm.trans h
  exact runController_frame (hb.keepsFrame s)

/-- A command of another unit changes `X` and the response alone, and only DEMUX_INIT and DEMUX_FEED change `X` (R39). -/
theorem exec_otherUnit {i : Instr} {s t : State} (hu : i.execUnit ≠ .controller) (h : exec i s = .next t) :
    ∃ x r, t = State.respond r { s with X := x } ∧
      ((∃ tag, i = .demuxInit tag ∧ x = { tag := tag, fwords := [] }) ∨
        (∃ w, i = .demuxFeed w ∧ x = (feedWord w s.X).1) ∨ x = s.X) := by
  cases i with
  | demuxInit tag => cases h; exact ⟨_, _, rfl, .inl ⟨tag, rfl, rfl⟩⟩
  | demuxFeed w => cases h; exact ⟨_, _, rfl, .inr (.inl ⟨w, rfl, rfl⟩)⟩
  | demuxStatus => cases h; exact ⟨_, _, rfl, .inr (.inr rfl)⟩
  | getState => cases h; exact ⟨_, _, rfl, .inr (.inr rfl)⟩
  | _ => exact absurd rfl hu

end Sys2Proof.Machine
end

section
/-! PROOFS. How a controller command ends, as `C` and the response show it: the table of its completions and of the errors
its body raises (spec/41_controller_ops.md R131 to R142, spec/42_lifecycle_fsm.md R152 to R163). -/

namespace Sys2Proof.Machine

/-- A controller command completes from `s` with the answer `v` and the controller `c`: one row per command, three for
READ_ONE (R155). -/
inductive Completes : Instr → State → RspValue → Controller → Prop where
  | setMode (mm : Bits2) (s : State) : Completes (.setMode mm) s .unit (lifecycleSetMode mm s.C)
  | enableCapture (s : State) : Completes .enableCapture s .unit (lifecycleEnable s.C)
  | disableCapture (s : State) : Completes .disableCapture s .unit (lifecycleDisable s.C)
  | readEmpty (s : State) : s.C.phase = .stopping → decodeRRD (s.readValue .RRD) = none →
      Completes .readOne s (.optWord none)
        { s.C with readyLast := false, phase := if s.C.readyLast = true then .drained else .stopping }
  | readWord (s : State) (w : Word32) : s.C.phase = .stopping → decodeRRD (s.readValue .RRD) = some w →
      s.C.drainedWords + 1 ≤ s.params.drainLimit →
      Completes .readOne s (.optWord (some w)) { s.C with readyLast := false, drainedWords := s.C.drainedWords + 1 }
  | readOutside (s : State) : s.C.phase ≠ .stopping →
      (s.C.phase = .drained → decodeRRD (s.readValue .RRD) = none) →
      Completes .readOne s (.optWord (decodeRRD (s.readValue .RRD))) (lifecycleQuery s.C)
  | isFull (s : State) : Completes .isFull s (.bool (decodeStatus (s.readValue .STS)).full)
      (lifecycleIsFull (decodeStatus (s.readValue .STS)).full s.C)
  | isEmpty (s : State) : Completes .isEmpty s (.bool (decodeStatus (s.readValue .STS)).empty) (lifecycleQuery s.C)
  | isReady (s : State) : Completes .isReady s (.bool (decodeStatus (s.readValue .STS)).ready)
      (lifecycleIsReady (decodeStatus (s.readValue .STS)).ready s.C)
  | isTriggered (s : State) :
      Completes .isTriggered s (.bool (decodeStatus (s.readValue .STS)).trigd) (lifecycleQuery s.C)
  | fillLevel (s : State) : Completes .fillLevel s (.bytes (wordsToBytes (s.readValue .CFILL))) (lifecycleQuery s.C)
  | fifoSize (s : State) : Completes .fifoSize s (.bytes (wordsToBytes (s.readValue .SIZE))) (lifecycleQuery s.C)
  | requestStopOnFlush (b : Bool) (s : State) :
      Completes (.requestStopOnFlush b) s .unit (lifecycleRequestStop b s.C)
  | triggerManualFlush (s : State) :
      ¬ (s.C.phase.capturing = true ∧ s.C.sofReq = true ∧ (s.readValue .FFCR).getLsbD 12 = false) →
      Completes .triggerManualFlush s .unit (lifecycleTrigger s.C)

/-- Every way the body of a controller command can end: it completes, or it raises one of the errors of R222 and R223. -/
inductive BodyEnds (i : Instr) (s : State) : Result RspValue → Prop where
  | completes {v : RspValue} {t : State} : Completes i s v t.C → BodyEnds i s (.done v t)
  | transport {reg : RegName} {dir : Dir} {t : State} : t.C = { s.C with fault := .transport reg dir } →
      BodyEnds i s (.raised (.transportError reg dir) t)
  | sofNotObserved {t : State} : i = .triggerManualFlush → t.C = { s.C with fault := .protocol .sofNotObserved } →
      BodyEnds i s (.raised (.protocolViolation .sofNotObserved) t)
  | dataAfterDrained {t : State} : i = .readOne → s.C.phase = .drained →
      t.C = { s.C with readyLast := false, fault := .protocol .dataAfterDrained } →
      BodyEnds i s (.raised (.protocolViolation .dataAfterDrained) t)
  | drainLimit {t : State} : i = .readOne → s.C.phase = .stopping → s.params.drainLimit < s.C.drainedWords + 1 →
      t.C = { s.C with
        readyLast := false, drainedWords := s.C.drainedWords + 1, fault := .protocol .drainLimit } →
      BodyEnds i s (.raised (.protocolViolation .drainLimit) t)

/-- A body that is one load and a pure end. -/
theorem loadBody_ends {i : Instr} {s : State} (reg : RegName) (f : Word32 → RspValue)
    (g : Word32 → Controller → Controller) (h : Completes i s (f (s.readValue reg)) (g (s.readValue reg) s.C)) :
    BodyEnds i s ((load reg s).andThen fun v t => .done (f v) (t.updateC (g v))) := by
  rw [loadBody_eq]
  split
  · exact .completes h
  · exact .transport rfl

/-- A body that is one store and a pure end. -/
theorem storeBody_ends {i : Instr} {s : State} (reg : RegName) (w : Word32) (g : Controller → Controller)
    (h : Completes i s .unit (g s.C)) :
    BodyEnds i s ((store reg w s).andThen fun _ t => Result.done RspValue.unit (t.updateC g)) := by
  rw [storeBody_eq]
  split
  · exact .completes h
  · exact .transport rfl

/-- A body that is one RMW and a pure end. -/
theorem rmwBody_ends {i : Instr} {s : State} (reg : RegName) (f : Word32 → Word32) (g : Controller → Controller)
    (h : Completes i s .unit (g s.C)) :
    BodyEnds i s ((rmw reg f s).andThen fun _ t => Result.done RspValue.unit (t.updateC g)) := by
  rw [rmwBody_eq]
  split
  · split
    · exact .completes h
    · exact .transport rfl
  · exact .transport rfl

theorem readOneBody_ends (s : State) : BodyEnds .readOne s (readOneBody s) := by
  rw [readOneBody_eq]
  split
  · rw [lifecycleReadOne_eq]
    split
    case isTrue hp =>
      split
      case isTrue hr => rw [hr]; exact .completes (.readEmpty s hp hr)
      case isFalse hr =>
        split
        case isTrue hl => exact .drainLimit rfl hp hl rfl
        case isFalse hl =>
          obtain ⟨w, hw⟩ := Option.ne_none_iff_exists'.1 hr
          rw [hw]; exact .completes (.readWord s w hp hw (Nat.le_of_not_lt hl))
    case isFalse hp =>
      split
      case isTrue hd => exact .dataAfterDrained rfl hd.1 rfl
      case isFalse hd => exact .completes (.readOutside s hp fun h => by_contra fun hn => hd ⟨h, hn⟩)
  · exact .transport rfl

theorem triggerBody_ends (s : State) : BodyEnds .triggerManualFlush s (triggerManualFlushBody s) := by
  rw [triggerBody_eq]
  split_ifs with h1 hc h2
  · exact .sofNotObserved rfl rfl
  · exact .completes (.triggerManualFlush s hc)
  · exact .transport rfl
  · exact .transport rfl

/-- The body of every controller command ends as its table says. -/
theorem HasBody.ends {i : Instr} {body : State → Result RspValue} (h : HasBody i body) (s : State) :
    BodyEnds i s (body s) := by
  cases h with
  | setMode mm => exact rmwBody_ends .MODE _ _ (.setMode mm s)
  | enableCapture => exact storeBody_ends .CTL _ _ (.enableCapture s)
  | disableCapture => exact storeBody_ends .CTL _ _ (.disableCapture s)
  | readOne => exact readOneBody_ends s
  | isFull => exact loadBody_ends .STS _ (fun v => lifecycleIsFull (decodeStatus v).full) (.isFull s)
  | isEmpty => exact loadBody_ends .STS (fun v => .bool (decodeStatus v).empty) (fun _ => lifecycleQuery) (.isEmpty s)
  | isReady => exact loadBody_ends .STS _ (fun v => lifecycleIsReady (decodeStatus v).ready) (.isReady s)
  | isTriggered =>
    exact loadBody_ends .STS (fun v => .bool (decodeStatus v).trigd) (fun _ => lifecycleQuery) (.isTriggered s)
  | fillLevel => exact loadBody_ends .CFILL (fun v => .bytes (wordsToBytes v)) (fun _ => lifecycleQuery) (.fillLevel s)
  | fifoSize => exact loadBody_ends .SIZE (fun v => .bytes (wordsToBytes v)) (fun _ => lifecycleQuery) (.fifoSize s)
  | requestStopOnFlush b => exact rmwBody_ends .FFCR _ _ (.requestStopOnFlush b s)
  | triggerManualFlush => exact triggerBody_ends s

/-- A controller command is refused without effect, illegal or with a fault latched, or its body runs (R227). -/
theorem exec_controllerEnds {i : Instr} {s t : State} (hu : i.execUnit = .controller) (h : exec i s = .next t) :
    ((i.wellFormed = false ∨ s.C.fault ≠ .noFault) ∧ ∃ e, t = s.respond (.err e)) ∨
    (i.wellFormed = true ∧ s.C.fault = .noFault ∧ ∃ r, BodyEnds i s r ∧ t = r.respond) := by
  obtain ⟨body, hb, he⟩ := exec_eq_runController hu
  cases (he s).symm.trans h
  rw [runController_eq]
  split_ifs with hw hf
  · exact .inl ⟨.inl hw, _, rfl⟩
  · exact .inr ⟨by simpa using hw, hf, _, hb.ends s, rfl⟩
  · exact .inl ⟨.inr hf, _, rfl⟩

/-- What a lifecycle procedure other than those of IS_READY and READ_ONE makes of `C`: `mode` is the mode it leaves. -/
structure LifecycleUpdate (mode : Bits2) (c c' : Controller) : Prop where
  fault : c'.fault = c.fault
  cfgMode : c'.cfgMode = mode
  readyLast : c'.readyLast = false
  lifecycleOk : c'.lifecycleOk = true → c.lifecycleOk = true
  drainedWords : c'.drainedWords ≤ c.drainedWords

theorem lifecycleQuery_update (c : Controller) : LifecycleUpdate c.cfgMode c (lifecycleQuery c) :=
  ⟨rfl, rfl, rfl, id, le_rfl⟩

theorem lifecycleIsFull_update (b : Bool) (c : Controller) : LifecycleUpdate c.cfgMode c (lifecycleIsFull b c) :=
  ⟨rfl, rfl, rfl, id, le_rfl⟩

theorem enterDisabled_update (c : Controller) : LifecycleUpdate c.cfgMode c (enterDisabled c) :=
  ⟨rfl, rfl, rfl, id, Nat.zero_le _⟩

theorem enterStopping_update (c : Controller) : LifecycleUpdate c.cfgMode c (enterStopping c) :=
  ⟨rfl, rfl, rfl, id, Nat.zero_le _⟩

theorem lifecycleSetMode_update (mm : Bits2) (c : Controller) : LifecycleUpdate mm c (lifecycleSetMode mm c) := by
  unfold lifecycleSetMode
  split
  · exact ⟨rfl, rfl, rfl, id, le_rfl⟩
  · exact ⟨rfl, rfl, rfl, (nomatch ·), le_rfl⟩

theorem lifecycleEnable_update (c : Controller) : LifecycleUpdate c.cfgMode c (lifecycleEnable c) := by
  unfold lifecycleEnable
  split
  · exact ⟨rfl, rfl, rfl, fun h => (Bool.and_eq_true_iff.1 h).1, Nat.zero_le _⟩
  · exact lifecycleQuery_update c

theorem lifecycleDisable_update (c : Controller) : LifecycleUpdate c.cfgMode c (lifecycleDisable c) := by
  have broken : LifecycleUpdate c.cfgMode c (enterDisabled { c with lifecycleOk := false }) :=
    ⟨rfl, rfl, rfl, (nomatch ·), Nat.zero_le _⟩
  unfold lifecycleDisable
  split
  · exact lifecycleQuery_update c
  · exact enterDisabled_update c
  all_goals exact broken

theorem lifecycleRequestStop_update (b : Bool) (c : Controller) :
    LifecycleUpdate c.cfgMode c (lifecycleRequestStop b c) := by
  unfold lifecycleRequestStop
  split
  case h_3 => exact ⟨rfl, rfl, rfl, fun h => (Bool.and_eq_true_iff.1 h).1, le_rfl⟩
  all_goals exact ⟨rfl, rfl, rfl, id, le_rfl⟩

theorem lifecycleTrigger_update (c : Controller) : LifecycleUpdate c.cfgMode c (lifecycleTrigger c) := by
  unfold lifecycleTrigger
  split_ifs
  · exact enterStopping_update c
  · exact ⟨rfl, rfl, rfl, (nomatch ·), le_rfl⟩
  · exact lifecycleQuery_update c

/-- A command that completes makes a lifecycle update, but for IS_READY, which sets `ready_last`, and the READ_ONE that
counts a drained word. -/
theorem Completes.update {i : Instr} {s : State} {v : RspValue} {c : Controller} (h : Completes i s v c) :
    (i ≠ .isReady ∧ ∃ mode, (mode = s.C.cfgMode ∨ i = .setMode mode) ∧ LifecycleUpdate mode s.C c) ∨
    (i = .isReady ∧ ∃ b, v = .bool b ∧ c = lifecycleIsReady b s.C) ∨
    (i = .readOne ∧ s.C.drainedWords + 1 ≤ s.params.drainLimit ∧
      c = { s.C with readyLast := false, drainedWords := s.C.drainedWords + 1 }) := by
  cases h with
  | setMode mm => exact .inl ⟨nofun, _, .inr rfl, lifecycleSetMode_update mm s.C⟩
  | enableCapture => exact .inl ⟨nofun, _, .inl rfl, lifecycleEnable_update s.C⟩
  | disableCapture => exact .inl ⟨nofun, _, .inl rfl, lifecycleDisable_update s.C⟩
  | readEmpty => exact .inl ⟨nofun, _, .inl rfl, rfl, rfl, rfl, id, le_rfl⟩
  | readWord _ _ _ _ hl => exact .inr (.inr ⟨rfl, hl, rfl⟩)
  | isFull => exact .inl ⟨nofun, _, .inl rfl, lifecycleIsFull_update _ s.C⟩
  | isReady => exact .inr (.inl ⟨rfl, _, rfl, rfl⟩)
  | requestStopOnFlush b => exact .inl ⟨nofun, _, .inl rfl, lifecycleRequestStop_update b s.C⟩
  | triggerManualFlush => exact .inl ⟨nofun, _, .inl rfl, lifecycleTrigger_update s.C⟩
  | readOutside | isEmpty | isTriggered | fillLevel | fifoSize =>
    exact .inl ⟨nofun, _, .inl rfl, lifecycleQuery_update s.C⟩

end Sys2Proof.Machine
end

section
/-! PROOFS. What a move of the host can change (spec/44_block_and_sequencer.md R201): its own record, the port and the
reset input; and the buffer `B` by PUSH alone. -/

namespace Sys2Proof.Machine

/-- The host has moved from `s` to `t`: the block, its parameters, the device and the bus side are as they were, and `B`
is as it was or as PUSH left it. -/
def HostMoved (s t : State) : Prop :=
  ∃ p r h, t = { s with port := p, resetIn := r, host := h } ∧
    (h.buf = s.host.buf ∨ ∃ w, h = (s.pushWord w).host)

@[simp] theorem afterCond_buf (h : HostState) (c : Cond) : (h.afterCond c).buf = h.buf := by
  unfold HostState.afterCond; split <;> rfl

@[simp] theorem recordResponse_buf (h : HostState) (r : Response) : (h.recordResponse r).buf = h.buf := by
  unfold HostState.recordResponse
  split
  · rfl
  · split <;> rfl

@[simp] theorem recordFeed_buf (h : HostState) (r : Response) : (h.recordFeed r).buf = h.buf := by
  unfold HostState.recordFeed; split <;> rfl

theorem jumpTo_next {name : Label} {s t : State} (h : s.jumpTo name = .next t) :
    ∃ p, t = { s with host := { s.host with pos := p } } := by
  unfold State.jumpTo at h
  split at h
  · cases h; exact ⟨_, rfl⟩
  · cases h

theorem branch_hostMoved {c : Cond} {name : Label} {s t : State} (h : s.branch c name = .next t) : HostMoved s t := by
  unfold State.branch at h
  split at h
  · obtain ⟨p, rfl⟩ := jumpTo_next h
    exact ⟨_, _, _, rfl, .inl (afterCond_buf s.host c)⟩
  · cases h; exact ⟨_, _, _, rfl, .inl (afterCond_buf s.host c)⟩

theorem pushLast_hostMoved {s t : State} (h : s.pushLast = .next t) : HostMoved s t := by
  unfold State.pushLast at h
  split at h
  · rename_i w _
    cases h
    obtain ⟨h', e⟩ := pushWord_hostOnly w s
    exact ⟨_, _, h', e, .inr ⟨w, by rw [e]⟩⟩
  · cases h

theorem runLine_hostMoved {l : Line} {s t : State} (h : runLine l s = .next t) : HostMoved s t := by
  cases l with
  | ifGoto c name => exact branch_hostMoved h
  | goto name =>
    obtain ⟨p, rfl⟩ := jumpTo_next h
    exact ⟨_, _, _, rfl, .inl rfl⟩
  | push => exact pushLast_hostMoved h
  | issue | feedB | endScript | resetBlock => cases h; exact ⟨_, _, _, rfl, .inl rfl⟩

theorem runScript_hostMoved {s t : State} (h : runScript s = .next t) : HostMoved s t := by
  unfold runScript at h
  split at h
  case h_2 =>
    split at h
    · exact runLine_hostMoved h
    · cases h; exact ⟨_, _, _, rfl, .inl rfl⟩
  all_goals cases h; exact ⟨_, _, _, rfl, .inl rfl⟩

/-- Everything a move of the host can change. -/
theorem hostStep_hostMoved {s t : State} (h : hostStep s = .next t) : HostMoved s t := by
  unfold hostStep at h
  split at h
  case h_1 r _ _ => cases h; exact ⟨_, _, _, rfl, .inl (recordResponse_buf s.host r)⟩
  case h_2 r _ _ => cases h; exact ⟨_, _, _, rfl, .inl (recordFeed_buf s.host r)⟩
  case h_5 => exact runScript_hostMoved h
  all_goals cases h; exact ⟨_, _, _, rfl, .inl rfl⟩

end Sys2Proof.Machine
end

section
/-! PROOFS. The block's invariants, command by command (spec/10_state.md): the drain bound (R26), the legal mode (R23), the
held words (R30) and the stickiness of `lifecycle_ok` (R27). -/

namespace Sys2Proof.Machine

/-- A command of another unit leaves `C` (R39). -/
theorem exec_otherUnit_C {i : Instr} {s t : State} (hu : i.execUnit ≠ .controller) (h : exec i s = .next t) :
    t.C = s.C := by
  obtain ⟨x, r, rfl, -⟩ := exec_otherUnit hu h; rfl

/-- No command changes the parameters. -/
theorem exec_params {i : Instr} {s t : State} (h : exec i s = .next t) : t.params = s.params := by
  by_cases hu : i.execUnit = .controller
  · exact (exec_controllerFrame hu h).params
  · obtain ⟨x, r, rfl, -⟩ := exec_otherUnit hu h; rfl

/-- No command changes the host. -/
theorem exec_host {i : Instr} {s t : State} (h : exec i s = .next t) : t.host = s.host := by
  by_cases hu : i.execUnit = .controller
  · exact (exec_controllerFrame hu h).host
  · obtain ⟨x, r, rfl, -⟩ := exec_otherUnit hu h; rfl

/-- What any command makes of `C`, all its ends: nothing; a lifecycle update; a ready observation; a counted word; a
fault latched; or the fault of the drain limit (R166). -/
theorem exec_C_cases {i : Instr} {s t : State} (h : exec i s = .next t) :
    t.C = s.C ∨
    (s.C.fault = .noFault ∧
      ((∃ mode, (mode = s.C.cfgMode ∨ i = .setMode mode ∧ i.wellFormed = true) ∧ LifecycleUpdate mode s.C t.C) ∨
       (∃ b, t.C = lifecycleIsReady b s.C) ∨
       (s.C.drainedWords + 1 ≤ s.params.drainLimit ∧
         t.C = { s.C with readyLast := false, drainedWords := s.C.drainedWords + 1 }) ∨
       (∃ b f, t.C = { s.C with readyLast := b, fault := f }) ∨
       (s.params.drainLimit < s.C.drainedWords + 1 ∧
         t.C = { s.C with
           readyLast := false, drainedWords := s.C.drainedWords + 1, fault := .protocol .drainLimit }))) := by
  by_cases hu : i.execUnit = .controller
  swap
  · exact .inl (exec_otherUnit_C hu h)
  rcases exec_controllerEnds hu h with ⟨-, e, rfl⟩ | ⟨hw, hf, r, hr, rfl⟩
  · exact .inl rfl
  refine .inr ⟨hf, ?_⟩
  cases hr with
  | completes hc =>
    rcases hc.update with ⟨-, mode, hm, hl⟩ | ⟨-, b, -, e⟩ | ⟨-, hl, e⟩
    · exact .inl ⟨mode, hm.imp_right (⟨·, hw⟩), hl⟩
    · exact .inr (.inl ⟨b, e⟩)
    · exact .inr (.inr (.inl ⟨hl, e⟩))
  | drainLimit _ _ hl e => exact .inr (.inr (.inr (.inr ⟨hl, e⟩)))
  | transport e | sofNotObserved _ e | dataAfterDrained _ _ e => exact .inr (.inr (.inr (.inl ⟨_, _, e⟩)))

/-- A command leaves the mode, or it is a SET_MODE with a legal mode, which it leaves in `cfg_mode` (R23, R93). -/
theorem exec_cfgMode {i : Instr} {s t : State} (h : exec i s = .next t) :
    t.C.cfgMode = s.C.cfgMode ∨ i = .setMode t.C.cfgMode ∧ i.wellFormed = true := by
  rcases exec_C_cases h with e | ⟨-, ⟨mode, hm, hl⟩ | ⟨b, e⟩ | ⟨-, e⟩ | ⟨b, f, e⟩ | ⟨-, e⟩⟩
  case inr.inl => rwa [hl.cfgMode]
  all_goals rw [e]; exact .inl rfl

/-- No command sets `lifecycle_ok` (R27). -/
theorem exec_lifecycleOk {i : Instr} {s t : State} (h : exec i s = .next t) (ht : t.C.lifecycleOk = true) :
    s.C.lifecycleOk = true := by
  rcases exec_C_cases h with e | ⟨-, ⟨mode, -, hl⟩ | ⟨b, e⟩ | ⟨-, e⟩ | ⟨b, f, e⟩ | ⟨-, e⟩⟩
  case inr.inl => exact hl.lifecycleOk ht
  all_goals rw [e] at ht; exact ht

/-- Only the controller record and the parameters matter to the drain bound. -/
theorem drainBounded_congr {s t : State} (hC : t.C = s.C) (hp : t.params = s.params) (h : drainBounded s) :
    drainBounded t := by
  simpa only [drainBounded, hC, hp] using h

/-- Every command keeps the drain bound (R26, R166): with no fault latched the counter is within the limit, so the word
that takes it above takes it one above. -/
theorem exec_drainBounded {i : Instr} {s t : State} (h : exec i s = .next t) (hb : drainBounded s) :
    drainBounded t := by
  have hp := exec_params h
  rcases exec_C_cases h with e | ⟨hf, hc⟩
  · exact drainBounded_congr e hp hb
  have hle : s.C.drainedWords ≤ s.params.drainLimit := hb.resolve_right fun hk => by simp [hf] at hk
  unfold drainBounded
  rw [hp]
  rcases hc with ⟨mode, -, hl⟩ | ⟨b, e⟩ | ⟨hn, e⟩ | ⟨b, f, e⟩ | ⟨hl, e⟩
  · exact .inl (hl.drainedWords.trans hle)
  · rw [e]; exact .inl hle
  · rw [e]; exact .inl hn
  · rw [e]; exact .inl hle
  · rw [e]; exact .inr ⟨congrArg (· + 1) (Nat.le_antisymm hle (Nat.lt_succ_iff.1 hl)), rfl⟩

/-- Every command keeps fewer than four words held (R30). -/
theorem exec_held {i : Instr} {s t : State} (h : exec i s = .next t) (hx : s.X.fwords.length < Config.frameWords) :
    t.X.fwords.length < Config.frameWords := by
  by_cases hu : i.execUnit = .controller
  · rwa [(exec_controllerFrame hu h).X]
  · obtain ⟨x, r, rfl, ⟨tag, -, rfl⟩ | ⟨w, -, rfl⟩ | rfl⟩ := exec_otherUnit hu h
    · exact Nat.zero_lt_succ 3
    · exact feedWord_length w s.X hx
    · exact hx

/-- Every command keeps the state invariant. -/
theorem exec_inv {i : Instr} {s t : State} (hs : s.Inv) (h : exec i s = .next t) : t.Inv where
  drained := exec_drainBounded h hs.drained
  cfgMode := by
    rcases exec_cfgMode h with e | ⟨rfl, hw⟩
    · rw [e]; exact hs.cfgMode
    · simpa [Instr.wellFormed] using hw
  held := exec_held h hs.held
  buffer := by rw [exec_host h, exec_params h]; exact hs.buffer

/-- Every move of the host keeps the state invariant. -/
theorem HostMoved.inv {s t : State} (h : HostMoved s t) (hs : s.Inv) : t.Inv := by
  obtain ⟨p, r, host, rfl, hb⟩ := h
  refine ⟨hs.drained, hs.cfgMode, hs.held, ?_⟩
  rcases hb with e | ⟨w, rfl⟩
  · exact e ▸ hs.buffer
  · exact pushWord_fits hs.buffer

/-- The reset event establishes the block's part of the invariant and leaves the host's buffer (R34, R251). -/
theorem blockReset_inv {s : State} (hs : s.Inv) : s.blockReset.Inv :=
  ⟨.inl (Nat.zero_le _), (by decide : Controller.reset.cfgMode ≠ 0b11#2), Nat.zero_lt_succ 3, hs.buffer⟩

end Sys2Proof.Machine
end

section
/-! PROOFS. The obligations of spec/10_state.md. -/

namespace Sys2Proof.Claims

open Sys2Proof.Machine

/-- Settles O37, by the four moves of a step: reset, a legal command, an illegal word, the host. -/
theorem stepKeepsStateInvariant : Obligations.StepKeepsStateInvariant := by
  intro s t hs h
  rcases step_cases h with ⟨-, rfl⟩ | ⟨-, c, i, -, -, he⟩ | ⟨-, c, e, -, -, rfl⟩ | ⟨-, -, hh⟩
  · exact blockReset_inv hs
  · exact exec_inv (s := s.acceptCommand) ⟨hs.drained, hs.cfgMode, hs.held, hs.buffer⟩ he
  · exact ⟨hs.drained, hs.cfgMode, hs.held, hs.buffer⟩
  · exact (hostStep_hostMoved hh).inv hs

/-- Settles O30: of the moves of a step only reset, which the premise shuts out, sets `lifecycle_ok`. -/
theorem lifecycleOkIsSticky : Obligations.LifecycleOkIsSticky := by
  intro s t hr h ht
  rcases step_cases h with ⟨hr', -⟩ | ⟨-, c, i, -, -, he⟩ | ⟨-, c, e, -, -, rfl⟩ | ⟨-, -, hh⟩
  · rw [hr] at hr'; cases hr'
  · exact exec_lifecycleOk (s := s.acceptCommand) he ht
  · exact ht
  · rwa [hostStep_C hh] at ht

/-- Settles O36: every completion but IS_READY's clears `ready_last`, and a command that raises an error latches a
fault. -/
theorem readyLastMeansReadyJustSeen : Obligations.ReadyLastMeansReadyJustSeen := by
  intro i s t hw h hf
  refine ⟨fun hu => ?_, fun hu => by rw [exec_otherUnit_C hu h]⟩
  rcases exec_controllerEnds hu h with ⟨hn, e, rfl⟩ | ⟨-, -, r, hr, rfl⟩
  · exact absurd hn (by simpa [hw] using hf)
  cases hr with
  | completes hc =>
    rcases hc.update with ⟨hi, mode, -, hl⟩ | ⟨rfl, b, rfl, e⟩ | ⟨rfl, -, e⟩
    · simp [hl.readyLast, hi]
    · simp [e, lifecycleIsReady]
    · simp [e]
  | transport e | sofNotObserved _ e | dataAfterDrained _ _ e | drainLimit _ _ _ e =>
    rw [respond_raised, respond_C, e] at hf; cases hf

/-- Settles O53: a controller command by its frame, with the register it writes; another unit's by what it sets. -/
theorem commandsKeepTheirFrame : Obligations.CommandsKeepTheirFrame := by
  intro i s t h
  have hmode : (∀ mm, i ≠ .setMode mm) → t.C.cfgMode = s.C.cfgMode := fun hi =>
    (exec_cfgMode h).resolve_right fun hk => hi _ hk.1
  by_cases hu : i.execUnit = .controller
  · have hk := exec_controllerFrame hu h
    exact ⟨hk.params, hk.host, hk.resetIn, hk.pending, hk.lawful, fun _ => hk.X, fun hn => absurd hu hn, fun _ => hk.X,
      fun hi => ⟨hmode hi, hk.modeW fun e => (writtenReg_eq_MODE.1 e).elim hi⟩,
      fun hi => hk.ctlW fun e => (writtenReg_eq_CTL.1 e).elim hi.1 hi.2,
      fun hb hi => hk.ffcrW fun e => (writtenReg_eq_FFCR.1 e).elim (fun ⟨b, eb⟩ => hb b eb) hi⟩
  · obtain ⟨x, r, rfl, hx⟩ := exec_otherUnit hu h
    refine ⟨rfl, rfl, rfl, rfl, rfl, fun hc => absurd hc hu, fun _ => ⟨rfl, rfl, rfl, rfl⟩, fun hi => ?_,
      fun _ => ⟨rfl, rfl⟩, fun _ => rfl, fun _ _ => rfl⟩
    rcases hx with ⟨tag, rfl, -⟩ | ⟨w, rfl, -⟩ | rfl
    · simp at hi
    · simp at hi
    · rfl

/-- Settles O33: the block's records in `State.reset` are the reset table's. -/
theorem blockStartsReset : Obligations.BlockStartsReset := ⟨rfl, rfl, rfl⟩

/-- Settles O42: the counter, the held words and `B` are empty, and neither a ready observation nor a request is on. -/
theorem resetMeetsInvariants : Obligations.ResetMeetsInvariants :=
  ⟨⟨.inl (Nat.zero_le _), by decide, Nat.zero_lt_succ 3, Nat.zero_le _⟩, fun _ hr => (nomatch hr),
    fun _ _ hc => (nomatch hc)⟩

end Sys2Proof.Claims
end

section
/-! PROOFS. Which transactions a command issues (spec/20_memory.md R50, R61, R63, spec/40_register_shim.md R121 to R123):
at most one load and one store, and the word stored after a load is computed from the word loaded. -/

namespace Sys2Proof.Machine

/-- The state in which a part of a body ends, with or without an error. -/
def Result.state {α : Type} : Result α → State
  | .done _ t => t
  | .raised _ t => t

theorem Result.respond_bus (r : Result RspValue) : r.respond.bus = r.state.bus := by
  cases r <;> rfl

/-- The commands that store after a load, with the register and what they make of the word loaded (R82, R85, R86). -/
inductive Modifies : Instr → RegName → (Word32 → Word32) → Prop where
  | setMode (mm : Bits2) : Modifies (.setMode mm) .MODE fun v => encodeMode v mm
  | requestStopOnFlush (b : Bool) : Modifies (.requestStopOnFlush b) .FFCR fun v => encodeFFCRsof v b
  | triggerManualFlush : Modifies .triggerManualFlush .FFCR encodeFFCRflush

/-- The transactions a command can issue from `s`: none, a load, the store of the capture switch, or a completed load and
the store of the modified word. -/
inductive Issues (i : Instr) (s : State) : List BusEvent → Prop where
  | nothing : Issues i s []
  | load (reg : RegName) (answer : Option Word32) : Issues i s [.read reg (s.addrOf reg) s.C.phase answer]
  | switch (en ok took : Bool) : Issues i s [.write .CTL (s.addrOf .CTL) (encodeControl en) ok took]
  | modify {reg : RegName} {f : Word32 → Word32} (v : Word32) (ok took : Bool) : Modifies i reg f →
      Issues i s [.read reg (s.addrOf reg) s.C.phase (some v), .write reg (s.addrOf reg) (f v) ok took]

/-- A body that ends in the result `r` has appended transactions of its command to the bus history. -/
def AppendsIssued (i : Instr) (s : State) (r : Result RspValue) : Prop :=
  ∃ es, r.state.bus = s.bus ++ es ∧ Issues i s es

theorem loadBody_appendsIssued (i : Instr) (s : State) (reg : RegName) (f : Word32 → RspValue)
    (g : Word32 → Controller → Controller) :
    AppendsIssued i s ((load reg s).andThen fun v t => .done (f v) (t.updateC (g v))) := by
  rw [loadBody_eq]
  split <;> exact ⟨_, rfl, .load _ _⟩

theorem switchBody_appendsIssued (i : Instr) (s : State) (en : Bool) (g : Controller → Controller) :
    AppendsIssued i s ((store .CTL (encodeControl en) s).andThen fun _ t => .done .unit (t.updateC g)) := by
  rw [storeBody_eq]
  split <;> exact ⟨_, rfl, .switch _ _ _⟩

theorem rmwBody_appendsIssued {i : Instr} {reg : RegName} {f : Word32 → Word32} (hm : Modifies i reg f) (s : State)
    (g : Controller → Controller) :
    AppendsIssued i s ((rmw reg f s).andThen fun _ t => .done .unit (t.updateC g)) := by
  rw [rmwBody_eq]
  split
  · split <;> exact ⟨_, List.append_assoc _ _ _, .modify _ _ _ hm⟩
  · exact ⟨_, rfl, .load _ _⟩

/-- READ_ONE's lifecycle update issues no transaction (R155). -/
theorem lifecycleReadOne_bus (r : Option Word32) (s : State) : (lifecycleReadOne r s).state.bus = s.bus := by
  rw [lifecycleReadOne_eq]
  split_ifs <;> rfl

/-- READ_ONE issues the load of Read-data (R134). -/
theorem readOneBody_bus (s : State) :
    (readOneBody s).state.bus = s.bus ++ [.read .RRD (s.addrOf .RRD) s.C.phase
      (if s.env.next.ok = true then some (s.readValue .RRD) else none)] := by
  rw [readOneBody_eq]
  split
  · have hb := lifecycleReadOne_bus (decodeRRD (s.readValue .RRD)) (afterRead .RRD (some (s.readValue .RRD)) s)
    cases hr : lifecycleReadOne (decodeRRD (s.readValue .RRD)) (afterRead .RRD (some (s.readValue .RRD)) s) <;>
      rw [hr] at hb <;> exact hb
  · rfl

/-- TRIGGER_MANUAL_FLUSH issues the load of FFCR, and the store if its check lets it (R142, R160). -/
theorem triggerBody_appendsIssued (s : State) : AppendsIssued .triggerManualFlush s (triggerManualFlushBody s) := by
  rw [triggerBody_eq]
  split_ifs
  · exact ⟨_, rfl, .load _ _⟩
  · exact ⟨_, List.append_assoc _ _ _, .modify _ _ _ .triggerManualFlush⟩
  · exact ⟨_, List.append_assoc _ _ _, .modify _ _ _ .triggerManualFlush⟩
  · exact ⟨_, rfl, .load _ _⟩

theorem HasBody.appendsIssued {i : Instr} {body : State → Result RspValue} (h : HasBody i body) (s : State) :
    AppendsIssued i s (body s) := by
  cases h with
  | setMode mm => exact rmwBody_appendsIssued (.setMode mm) s _
  | enableCapture => exact switchBody_appendsIssued _ s true _
  | disableCapture => exact switchBody_appendsIssued _ s false _
  | readOne => exact ⟨_, readOneBody_bus s, .load _ _⟩
  | isFull => exact loadBody_appendsIssued _ s .STS _ fun v => lifecycleIsFull (decodeStatus v).full
  | isReady => exact loadBody_appendsIssued _ s .STS _ fun v => lifecycleIsReady (decodeStatus v).ready
  | isEmpty | isTriggered | fillLevel | fifoSize => exact loadBody_appendsIssued _ s _ _ fun _ => lifecycleQuery
  | requestStopOnFlush b => exact rmwBody_appendsIssued (.requestStopOnFlush b) s _
  | triggerManualFlush => exact triggerBody_appendsIssued s

/-- How a controller command ends, with its body's result: it is refused, or the body completes or raises (R227). -/
theorem HasBody.exec_cases {i : Instr} {body : State → Result RspValue} {s t : State} (hb : HasBody i body)
    (h : exec i s = .next t) :
    (∃ e, (e = .illegalCommand (encode i).cmd ∨ e = .sessionAborted s.C.fault) ∧ t = s.respond (.err e)) ∨
    (s.C.fault = .noFault ∧ t = (body s).respond) := by
  have he : exec i s = .next (runController i body s) := by cases hb <;> rfl
  cases he.symm.trans h
  rw [runController_eq]
  split_ifs with hw hf
  · exact .inl ⟨_, .inl rfl, rfl⟩
  · exact .inr ⟨hf, rfl⟩
  · exact .inl ⟨_, .inr rfl, rfl⟩

/-- Every command appends to the bus history what it issues. -/
theorem exec_issues {i : Instr} {s t : State} (h : exec i s = .next t) : ∃ es, t.bus = s.bus ++ es ∧ Issues i s es := by
  by_cases hu : i.execUnit = .controller
  · obtain ⟨body, hb, -⟩ := exec_eq_runController hu
    rcases hb.exec_cases h with ⟨e, -, rfl⟩ | ⟨-, rfl⟩
    · exact ⟨[], (List.append_nil _).symm, .nothing⟩
    · rw [Result.respond_bus]; exact hb.appendsIssued s
  · obtain ⟨x, r, rfl, -⟩ := exec_otherUnit hu h
    exact ⟨[], (List.append_nil _).symm, .nothing⟩

/-- What a command appended to the bus history, it issued. -/
theorem issues_of_bus_eq {i : Instr} {s t : State} {es : List BusEvent} (h : exec i s = .next t)
    (he : t.bus = s.bus ++ es) : Issues i s es := by
  obtain ⟨es', hb, hi⟩ := exec_issues h
  rwa [List.append_cancel_left (he.symm.trans hb)]

theorem Issues.length_le {i : Instr} {s : State} {es : List BusEvent} (h : Issues i s es) : es.length ≤ 2 := by
  cases h <;> simp

/-- Every transaction is at the address of its register (R50). -/
theorem Issues.addressed {i : Instr} {s : State} {es : List BusEvent} (h : Issues i s es) :
    ∀ e ∈ es, e.addressed s.params = true := by
  cases h <;> simp [BusEvent.addressed, State.addrOf]

/-- Bit 6 of the stored word of REQUEST_STOP_ON_FLUSH is 0 (R85). -/
theorem encodeFFCRsof_bit6 (v : Word32) (b : Bool) : (encodeFFCRsof v b).getLsbD 6 = false := by
  cases b <;> simp [encodeFFCRsof]

/-- A stored word that requests a flush is TRIGGER_MANUAL_FLUSH's: REQUEST_STOP_ON_FLUSH clears bit 6, and the other
stores are not to FFCR (R57, R85). -/
theorem Issues.eq_trigger_of_requestsFlush {i : Instr} {s : State} {es : List BusEvent} {e : BusEvent}
    (h : Issues i s es) (he : e ∈ es) (hf : e.requestsFlush = true) : i = .triggerManualFlush := by
  cases h with
  | nothing => cases he
  | load => cases List.mem_singleton.1 he; cases hf
  | switch => cases List.mem_singleton.1 he; cases hf
  | modify v ok took hm =>
    rcases List.mem_pair.1 he with rfl | rfl
    · cases hf
    · cases hm with
      | setMode => cases hf
      | requestStopOnFlush b => exact absurd hf (ne_true_of_eq_false (encodeFFCRsof_bit6 v b))
      | triggerManualFlush => rfl

end Sys2Proof.Machine
end

section
/-! PROOFS. What the device records of a completed write and what a lawful read makes of it (spec/20_memory.md R69, R70):
the mode and stop-on-flush fields, and the capture switch (R56). -/

namespace Sys2Proof.Machine

/-- The stored word of SET_MODE reads back with its mode, whatever the device draws (R69, R82). -/
theorem lawMode_encodeMode (v raw : Word32) (m : Bits2) :
    (lawMode (some (encodeMode v m)) raw).extractLsb' 0 2 = m := by
  apply BitVec.eq_of_getLsbD_eq
  intro k hk
  interval_cases k <;> simp [lawMode, encodeMode]

/-- Bit 12 of the stored word of REQUEST_STOP_ON_FLUSH is its operand (R85). -/
theorem encodeFFCRsof_bit12 (v : Word32) (b : Bool) : (encodeFFCRsof v b).getLsbD 12 = b := by
  cases b <;> simp [encodeFFCRsof]

/-- Bit 12 of FFCR reads back as written, whatever the device draws (R70). -/
theorem lawFFCR_bit12 (w raw : Word32) : (lawFFCR (some w) raw).getLsbD 12 = w.getLsbD 12 := by
  simp [lawFFCR]

/-- A lawful device answers a read of Mode by the law (R69). -/
theorem readValue_MODE {s : State} (h : s.dev.lawful = true) :
    s.readValue .MODE = lawMode s.dev.modeW s.env.next.value := by
  simp [State.readValue, Device.answer, h, Device.lawfulAnswer]

/-- A lawful device answers a read of FFCR by the law (R70). -/
theorem readValue_FFCR {s : State} (h : s.dev.lawful = true) :
    s.readValue .FFCR = lawFFCR s.dev.ffcrW s.env.next.value := by
  simp [State.readValue, Device.answer, h, Device.lawfulAnswer]

/-- An RMW body that completes has written the modified word (R123). -/
theorem rmwBody_done_dev {reg : RegName} {f : Word32 → Word32} {g : Controller → Controller} {s u : State} {v : RspValue}
    (h : ((rmw reg f s).andThen fun _ t => Result.done RspValue.unit (t.updateC g)) = .done v u) :
    u.dev = s.dev.written reg (f (s.readValue reg)) := by
  rw [rmwBody_eq] at h
  split_ifs at h
  cases h; rfl

/-- A command that answers `Ok` is one whose body completes. -/
theorem HasBody.exec_ok {i : Instr} {body : State → Result RspValue} {s t : State} {v : RspValue} (hb : HasBody i body)
    (h : exec i s = .next t) (hr : t.port.rsp = some (.ok v)) : ∃ u, body s = .done v u ∧ t = u.respond (.ok v) := by
  rcases hb.exec_cases h with ⟨e, -, rfl⟩ | ⟨-, rfl⟩
  · cases hr
  · cases hd : body s with
    | done v' u => rw [hd] at hr; cases hr; exact ⟨u, rfl, rfl⟩
    | raised e u => rw [hd] at hr; cases hr

/-- A SET_MODE that answers `Ok` leaves its word on record (R69). -/
theorem setMode_ok_modeW {mm : Bits2} {s t : State} (h : exec (.setMode mm) s = .next t)
    (hr : t.port.rsp = some (.ok .unit)) : t.dev.modeW = some (encodeMode (s.readValue .MODE) mm) := by
  obtain ⟨u, hd, rfl⟩ := (HasBody.setMode mm).exec_ok h hr
  rw [respond_dev, rmwBody_done_dev hd]; rfl

/-- A REQUEST_STOP_ON_FLUSH that answers `Ok` leaves its word on record (R70). -/
theorem requestStop_ok_ffcrW {b : Bool} {s t : State} (h : exec (.requestStopOnFlush b) s = .next t)
    (hr : t.port.rsp = some (.ok .unit)) : t.dev.ffcrW = some (encodeFFCRsof (s.readValue .FFCR) b) := by
  obtain ⟨u, hd, rfl⟩ := (HasBody.requestStopOnFlush b).exec_ok h hr
  rw [respond_dev, rmwBody_done_dev hd]; rfl

/-- ENABLE_CAPTURE whose write completes (R132). -/
theorem exec_enableCapture_done {s : State} (hf : s.C.fault = .noFault) (hk : s.env.next.ok = true) :
    exec .enableCapture s = .next
      (((afterWrite .CTL (encodeControl true) true true s).updateC lifecycleEnable).respond (.ok .unit)) := by
  rw [exec, execEnableCapture, runController_runs _ _ _ rfl hf, enableCaptureBody_eq, if_pos hk, respond_done]

/-- DISABLE_CAPTURE whose write completes (R133). -/
theorem exec_disableCapture_done {s : State} (hf : s.C.fault = .noFault) (hk : s.env.next.ok = true) :
    exec .disableCapture s = .next
      (((afterWrite .CTL (encodeControl false) true true s).updateC lifecycleDisable).respond (.ok .unit)) := by
  rw [exec, execDisableCapture, runController_runs _ _ _ rfl hf, disableCaptureBody_eq, if_pos hk, respond_done]

theorem lifecycleEnable_idem (c : Controller) : lifecycleEnable (lifecycleEnable c) = lifecycleEnable c := by
  by_cases hp : c.phase = .disabled <;> simp [lifecycleEnable, hp]

/-- DISABLE_CAPTURE leaves the phase Disabled (R154). -/
theorem lifecycleDisable_phase (c : Controller) : (lifecycleDisable c).phase = .disabled := by
  unfold lifecycleDisable
  split
  · assumption
  all_goals rfl

theorem lifecycleDisable_idem (c : Controller) : lifecycleDisable (lifecycleDisable c) = lifecycleDisable c := by
  have hp := lifecycleDisable_phase c
  have hr := (lifecycleDisable_update c).readyLast
  generalize lifecycleDisable c = d at hp hr
  cases d
  simp_all [lifecycleDisable]

/-- A command that completes as one write of Control and an update of `C` that is idempotent and latches no fault leaves
the device and `C` the second time as the first (R56). -/
theorem controlWrite_twice {i : Instr} {en : Bool} {g : Controller → Controller}
    (hi : ∀ s : State, s.C.fault = .noFault → s.env.next.ok = true → exec i s = .next
      (((afterWrite .CTL (encodeControl en) true true s).updateC g).respond (.ok .unit)))
    (hg : ∀ c, g (g c) = g c) (hgf : ∀ c, (g c).fault = c.fault) {s t u : State} (hf : s.C.fault = .noFault)
    (h1 : s.env.next.ok = true) (h2 : s.env.advance.next.ok = true) (ht : exec i s = .next t) (hu : exec i t = .next u) :
    u.dev = t.dev ∧ u.C = t.C ∧ t.dev.captureEnabled = en := by
  cases (hi s hf h1).symm.trans ht
  cases (hi _ ((hgf s.C).trans hf) h2).symm.trans hu
  exact ⟨rfl, hg s.C, by cases en <;> rfl⟩

end Sys2Proof.Machine
end

section
/-! PROOFS. The stop-on-flush request on record (spec/20_memory.md R70, spec/42_lifecycle_fsm.md R159 to R161): the command
that sets `sof_req` has written bit 12, and the one other command that writes FFCR leaves no request pending. -/

namespace Sys2Proof.Machine

/-- A request is pending: `sof_req` counts (R24, R160). -/
def Controller.requestPending (c : Controller) : Prop := c.phase.capturing = true ∧ c.sofReq = true

/-- A fault raised by a body is latched (R225). -/
theorem BodyEnds.fault_ne_of_raised {i : Instr} {s u : State} {e : CmdError} (h : BodyEnds i s (.raised e u)) :
    u.C.fault ≠ .noFault := by
  cases h with
  | transport e | sofNotObserved _ e | dataAfterDrained _ _ e | drainLimit _ _ _ e => rw [e]; nofun

/-- SET_MODE leaves a request as it was (R152). -/
theorem requestPending_of_setMode {mm : Bits2} {c : Controller} (h : (lifecycleSetMode mm c).requestPending) :
    c.requestPending := by
  unfold lifecycleSetMode at h
  split at h <;> exact h

/-- ENABLE_CAPTURE starts a session without a request (R153). -/
theorem requestPending_of_enable {c : Controller} (h : (lifecycleEnable c).requestPending) : c.requestPending := by
  unfold lifecycleEnable at h
  split at h
  · exact absurd h.2 nofun
  · exact h

/-- DISABLE_CAPTURE leaves no request pending (R154). -/
theorem not_requestPending_disable (c : Controller) : ¬ (lifecycleDisable c).requestPending := by
  simp [Controller.requestPending, lifecycleDisable_phase, Phase.capturing]

/-- IS_FULL moves between phases in which a request counts (R156). -/
theorem requestPending_of_isFull {b : Bool} {c : Controller} (h : (lifecycleIsFull b c).requestPending) :
    c.requestPending := by
  unfold lifecycleIsFull Controller.requestPending at h
  split_ifs at h with hp
  · exact ⟨by rw [hp.1]; rfl, h.2⟩
  · exact h

/-- After REQUEST_STOP_ON_FLUSH b a pending request is b's (R159). -/
theorem eq_true_of_requestPending_requestStop {b : Bool} {c : Controller}
    (h : (lifecycleRequestStop b c).requestPending) : b = true := by
  obtain ⟨hp, hq⟩ := h
  cases hc : c.phase <;> simp_all [lifecycleRequestStop, Phase.capturing]

/-- TRIGGER_MANUAL_FLUSH leaves no request pending: it stops the capture a request was made for (R161). -/
theorem not_requestPending_trigger (c : Controller) : ¬ (lifecycleTrigger c).requestPending := by
  rintro ⟨hp, hq⟩
  unfold lifecycleTrigger at hp hq
  split_ifs at hp hq with hc hs
  · cases hp
  · exact hs hq
  · exact hc hp

/-- READ_ONE enters no phase in which a request counts (R155). -/
theorem not_requestPending_readEmpty {c : Controller} {q : Bool} :
    ¬ Controller.requestPending { c with readyLast := false, phase := if q = true then .drained else .stopping } := by
  cases q <;> exact fun h => nomatch h.1

/-- A request pending after a command completed is the one it made, or was pending before a command that does not write
FFCR. -/
theorem Completes.requestPending {i : Instr} {s : State} {v : RspValue} {c : Controller} (h : Completes i s v c)
    (hc : c.requestPending) :
    (i = .requestStopOnFlush true ∧ v = .unit) ∨ (writtenReg i ≠ some .FFCR ∧ s.C.requestPending) := by
  cases h with
  | setMode mm => exact .inr ⟨nofun, requestPending_of_setMode hc⟩
  | enableCapture => exact .inr ⟨nofun, requestPending_of_enable hc⟩
  | disableCapture => exact absurd hc (not_requestPending_disable s.C)
  | readEmpty => exact absurd hc not_requestPending_readEmpty
  | isFull => exact .inr ⟨nofun, requestPending_of_isFull hc⟩
  | readWord | readOutside | isEmpty | isReady | isTriggered | fillLevel | fifoSize => exact .inr ⟨nofun, hc⟩
  | requestStopOnFlush b => exact .inl ⟨by rw [eq_true_of_requestPending_requestStop hc], rfl⟩
  | triggerManualFlush => exact absurd hc (not_requestPending_trigger s.C)

/-- Only `C` and the device matter to the request's record. -/
theorem requestOnRecord_congr {s t : State} (hC : t.C = s.C) (hd : t.dev = s.dev) (h : Claims.requestOnRecord s) :
    Claims.requestOnRecord t := by
  simpa only [Claims.requestOnRecord, hC, hd] using h

/-- Every command keeps a pending request on record. -/
theorem exec_requestOnRecord {i : Instr} {s t : State} (hs : Claims.requestOnRecord s) (h : exec i s = .next t) :
    Claims.requestOnRecord t := by
  by_cases hu : i.execUnit = .controller
  swap
  · obtain ⟨x, r, rfl, -⟩ := exec_otherUnit hu h
    exact requestOnRecord_congr rfl rfl hs
  obtain ⟨body, hb, -⟩ := exec_eq_runController hu
  have hk := exec_controllerFrame hu h
  rcases hb.exec_cases h with ⟨e, -, rfl⟩ | ⟨hf, rfl⟩
  · exact requestOnRecord_congr rfl rfl hs
  have hends := hb.ends s
  generalize body s = r at h hk hends
  intro hl ht hp hq
  cases r with
  | raised e u => exact absurd ht hends.fault_ne_of_raised
  | done v u =>
    cases hends with
    | completes hc =>
      rcases hc.requestPending ⟨hp, hq⟩ with ⟨rfl, rfl⟩ | ⟨hw, hp', hq'⟩
      · exact ⟨_, requestStop_ok_ffcrW h rfl, encodeFFCRsof_bit12 _ true⟩
      · rw [hk.ffcrW hw]
        exact hs (hk.lawful ▸ hl) hf hp' hq'

end Sys2Proof.Machine
end

section
/-! PROOFS. What READ_ONE can answer under the drain contract (spec/20_memory.md R74). -/

namespace Sys2Proof.Machine

/-- The contract on a history with one more transaction: it is checked against the watch over those before. -/
theorem contractHoldsFrom_append_singleton (w : DrainWatch) (bus : List BusEvent) (e : BusEvent) :
    contractHoldsFrom w (bus ++ [e]) =
      (contractHoldsFrom w bus && !(bus.foldl DrainWatch.next w == .exhausted && e.showsWord)) := by
  induction bus generalizing w with
  | nil => simp [contractHoldsFrom]
  | cons e' bus ih => simp only [List.cons_append, contractHoldsFrom, ih, List.foldl_cons, Bool.and_assoc]

/-- With its premise met, the contract lets the next transaction return no word (R74). -/
theorem showsWord_eq_false_of_contract {bus : List BusEvent} {e : BusEvent} (hw : drainWatch bus = .exhausted)
    (hc : DrainContract (bus ++ [e]) = true) : e.showsWord = false := by
  rw [DrainContract, contractHoldsFrom_append_singleton, ← drainWatch, hw, Bool.and_eq_true] at hc
  simpa using hc.2

/-- No word raises no protocol violation (R155). -/
theorem lifecycleReadOne_none (s : State) : ∃ t, lifecycleReadOne none s = .done () t := by
  rw [lifecycleReadOne_eq]
  split
  · exact ⟨_, rfl⟩
  · exact ⟨_, if_neg fun h => h.2 rfl⟩

/-- A READ_ONE that reads the sentinel answers no word, unless its transaction fails (R134, R155). -/
theorem readOneBody_of_sentinel {s : State} (h : s.env.next.ok = true → s.readValue .RRD = Config.sentinel) :
    (∃ t, readOneBody s = .done (.optWord none) t) ∨ ∃ t, readOneBody s = .raised (.transportError .RRD .R) t := by
  rw [readOneBody_eq]
  split
  case isTrue hk =>
    have hr : decodeRRD (s.readValue .RRD) = none := by rw [h hk]; rfl
    obtain ⟨t, ht⟩ := lifecycleReadOne_none (afterRead .RRD (some (s.readValue .RRD)) s)
    exact .inl ⟨t, by rw [hr, ht]; rfl⟩
  case isFalse => exact .inr ⟨_, rfl⟩

end Sys2Proof.Machine
end

section
/-! PROOFS. The addresses of the map (spec/20_memory.md R50, R54). -/

namespace Sys2Proof.Machine

/-- The implementation's base is a multiple of 4 and its address width holds the whole map (log entries 4 and 5). -/
theorem implemented_wf : Params.implemented.wf := by
  have fits (n k : Nat) : n ≤ 2 ^ (n.log2 + 1 + k) :=
    Nat.lt_log2_self.le.trans (Nat.pow_le_pow_right two_pos (Nat.le_add_right _ k))
  refine ⟨Nat.mul_mod_right 4 _, ?_⟩
  simp only [Params.implemented]
  exact fits _ _

theorem reset_params : State.reset.params = Params.implemented := rfl

/-- With well-formed parameters every register's word is aligned and fits the transport (R54). -/
theorem addrOf_aligned {s : State} (reg : RegName) (h : s.params.wf) :
    s.addrOf reg % 4 = 0 ∧ s.addrOf reg + 4 ≤ 2 ^ s.params.addrW := by
  obtain ⟨hbase, hwidth⟩ := h
  cases reg <;> simp only [State.addrOf, RegName.off] <;> omega

/-- No step changes the parameters (R10). -/
theorem step_params {s t : State} (h : step s = .next t) : t.params = s.params := by
  rcases step_cases h with ⟨-, rfl⟩ | ⟨-, c, i, -, -, he⟩ | ⟨-, c, e, -, -, rfl⟩ | ⟨-, -, hh⟩
  · rfl
  · exact exec_params (s := s.acceptCommand) he
  · rfl
  · obtain ⟨p, r, host, rfl, -⟩ := hostStep_hostMoved hh; rfl

end Sys2Proof.Machine
end

section
/-! PROOFS. The obligations of spec/20_memory.md. -/

namespace Sys2Proof.Claims

open Sys2Proof.Machine

/-- Settles O41, by the four moves of a step; a command keeps the record by `exec_requestOnRecord`. -/
theorem stepKeepsRequestOnRecord : Obligations.StepKeepsRequestOnRecord := by
  intro s t hs h
  rcases step_cases h with ⟨-, rfl⟩ | ⟨-, c, i, -, -, he⟩ | ⟨-, c, e, -, -, rfl⟩ | ⟨-, -, hh⟩
  · exact fun _ _ hp => nomatch hp
  · exact exec_requestOnRecord (s := s.acceptCommand) hs he
  · exact requestOnRecord_congr rfl rfl hs
  · obtain ⟨p, r, host, rfl, -⟩ := hostStep_hostMoved hh
    exact requestOnRecord_congr rfl rfl hs

/-- Settles O40: the contract makes a completed Read-data read return the sentinel. -/
theorem contractExcludesLaterWords : Obligations.ContractExcludesLaterWords := by
  intro s t hw hc h
  rcases HasBody.readOne.exec_cases h with ⟨e, he, rfl⟩ | ⟨-, rfl⟩
  · rcases he with rfl | rfl <;> exact ⟨nofun, nofun⟩
  · rw [Result.respond_bus, readOneBody_bus] at hc
    have hs : s.env.next.ok = true → s.readValue .RRD = Config.sentinel := fun hk => by
      simpa [hk, BusEvent.showsWord] using showsWord_eq_false_of_contract hw hc
    rcases readOneBody_of_sentinel hs with ⟨u, e⟩ | ⟨u, e⟩ <;> rw [e] <;> exact ⟨nofun, nofun⟩

/-- Settles O47: the four shapes of what a command issues; another unit leaves the bus history. -/
theorem transactionsAreFewAndMapped : Obligations.TransactionsAreFewAndMapped := by
  intro i s t h
  obtain ⟨es, hb, hi⟩ := exec_issues h
  refine ⟨es, hb, hi.length_le, hi.addressed, fun hu => ?_⟩
  obtain ⟨x, r, rfl, -⟩ := exec_otherUnit hu h
  exact List.self_eq_append_right.1 hb

/-- Settles O48: of what a command can issue only a completed load with its store is two transactions. -/
theorem readModifyWriteIsAdjacent : Obligations.ReadModifyWriteIsAdjacent := by
  intro i s t e₁ e₂ h hb
  cases issues_of_bus_eq h hb with
  | modify v ok took hm => cases hm <;> exact ⟨_, v, ok, took, by decide, rfl, rfl⟩

/-- Settles O49: the base is a multiple of 4 and so is every offset, none beyond FFCR's; a step keeps the parameters. -/
theorem addressesAreAligned : Obligations.AddressesAreAligned :=
  ⟨reset_params ▸ implemented_wf, fun _ reg hp => addrOf_aligned reg hp, fun _ _ h => step_params h⟩

/-- Settles O50, by the shapes of what a command issues. -/
theorem onlyTriggerRequestsFlush : Obligations.OnlyTriggerRequestsFlush := by
  rintro i s t es h hb ⟨e, he, hf⟩
  exact (issues_of_bus_eq h hb).eq_trigger_of_requestsFlush he hf

/-- Settles O51: each command's lifecycle update is idempotent, and so is the write of one word. -/
theorem captureSwitchIsIdempotent : Obligations.CaptureSwitchIsIdempotent := by
  rintro i s t u (rfl | rfl) hf h1 h2 ht hu
  · exact controlWrite_twice (fun _ => exec_enableCapture_done) lifecycleEnable_idem
      (fun c => (lifecycleEnable_update c).fault) hf h1 h2 ht hu
  · exact controlWrite_twice (fun _ => exec_disableCapture_done) lifecycleDisable_idem
      (fun c => (lifecycleDisable_update c).fault) hf h1 h2 ht hu

/-- Settles O52: the word the command leaves on record decides the field of every lawful read. -/
theorem writtenFieldsReadBack : Obligations.WrittenFieldsReadBack := by
  refine ⟨fun s t mm hl h hr => ?_, fun s t b hl h hr => ?_⟩
  · rw [readValue_MODE ((exec_controllerFrame rfl h).lawful.trans hl), setMode_ok_modeW h hr, lawMode_encodeMode]
  · rw [readValue_FFCR ((exec_controllerFrame rfl h).lawful.trans hl), requestStop_ok_ffcrW h hr, lawFFCR_bit12,
      encodeFFCRsof_bit12]

end Sys2Proof.Claims
end

section
/-! PROOFS. The command word as opcode and argument (spec/30_encoding.md R90 to R93): what a command spells in them, and
the decoder and the encoder in these terms. -/

namespace Sys2Proof

/-- The opcode of a command (R91). -/
def Instr.opcode : Instr → BitVec 8
  | .setMode _ => 0x01
  | .enableCapture => 0x02
  | .disableCapture => 0x03
  | .readOne => 0x04
  | .isFull => 0x05
  | .isEmpty => 0x06
  | .isReady => 0x07
  | .isTriggered => 0x08
  | .fillLevel => 0x09
  | .fifoSize => 0x0A
  | .requestStopOnFlush _ => 0x0B
  | .triggerManualFlush => 0x0C
  | .demuxInit _ => 0x20
  | .demuxFeed _ => 0x21
  | .demuxStatus => 0x22
  | .getState => 0x30

/-- The argument of a command: its field below the fixed zeros (R92). -/
def Instr.argument : Instr → BitVec 8
  | .setMode mm => mm.setWidth 8
  | .requestStopOnFlush b => (BitVec.ofBool b).setWidth 8
  | .demuxInit t => t.setWidth 8
  | _ => 0

/-- The DATA word of a command, `d` where the command ignores it (R90). -/
def Instr.dataOr (d : Word32) : Instr → Word32
  | .demuxFeed w => w
  | _ => d

/-- A command word carries a command: a well-formed one with its opcode, its argument and its DATA. -/
structure Instr.CarriedBy (i : Instr) (c : Command) : Prop where
  wellFormed : i.wellFormed = true
  opcode : i.opcode = c.cmd.op
  argument : i.argument = c.cmd.arg
  data : i.dataOr c.data = c.data

theorem CmdWord.op_append_arg (c : CmdWord) : c.op ++ c.arg = c :=
  (BitVec.extractLsb'_append_extractLsb'_eq_extractLsb' rfl).trans BitVec.extractLsb'_eq_self

theorem CmdWord.op_append (a b : BitVec 8) : CmdWord.op (a ++ b) = a := BitVec.extractLsb'_append_eq_left

theorem CmdWord.arg_append (a b : BitVec 8) : CmdWord.arg (a ++ b) = b := BitVec.extractLsb'_append_eq_right

/-- A field put in by `or` under `p` is appended to it. -/
theorem append_zero_or_setWidth {l m n : Nat} (hn : n ≤ m) (p : BitVec l) (x : BitVec n) :
    (p ++ 0#m) ||| x.setWidth (l + m) = p ++ x.setWidth m := by
  ext k hk
  by_cases h : k < m
  · simp [BitVec.getElem_append, h]
  · simp [BitVec.getElem_append, h, BitVec.getLsbD_of_ge x k (by omega)]

/-- The encoder puts the argument below the opcode (R90). -/
theorem encode_cmd (i : Instr) : (encode i).cmd = i.opcode ++ i.argument := by
  cases i with
  | setMode mm => exact append_zero_or_setWidth (m := 8) (by decide) 0x01#8 mm
  | requestStopOnFlush b => cases b <;> decide
  | demuxInit t => exact append_zero_or_setWidth (m := 8) (by decide) 0x20#8 t
  | demuxFeed w => show 0x2100#16 = 0x21#8 ++ 0#8; decide
  | _ => decide

/-- The encoder puts the command's own DATA beside CMD (R90). -/
theorem dataOr_encode_data (i : Instr) : i.dataOr (encode i).data = (encode i).data := by
  cases i <;> rfl

/-- A word carries a command exactly when it is the command's encoding, in CMD and, where the command reads it, in DATA
(R90). -/
theorem Instr.carriedBy_iff {i : Instr} {c : Command} :
    i.CarriedBy c ↔ i.wellFormed = true ∧ (encode i).cmd = c.cmd ∧ i.dataOr c.data = c.data := by
  rw [encode_cmd]
  refine ⟨fun h => ⟨h.wellFormed, ?_, h.data⟩, fun ⟨hw, hc, hd⟩ => ⟨hw, ?_, ?_, hd⟩⟩
  · rw [h.opcode, h.argument, CmdWord.op_append_arg]
  · rw [← hc, CmdWord.op_append]
  · rw [← hc, CmdWord.arg_append]

/-- An argument whose bits from `k` on are 0 is its low `k` bits. -/
theorem setWidth_extractLsb'_eq_self {k : Nat} {a : BitVec 8} (h : a.extractLsb' k (8 - k) = 0) :
    (a.extractLsb' 0 k).setWidth 8 = a := by
  ext j hj
  by_cases hjk : j < k
  · simp [hjk, BitVec.getLsbD_eq_getElem hj]
  · have hb : (a.extractLsb' k (8 - k)).getLsbD (j - k) = false := by simp [h]
    rw [BitVec.getLsbD_extractLsb', Nat.add_sub_cancel' (by omega), decide_eq_true (by omega), Bool.true_and] at hb
    simp [hjk, ← BitVec.getLsbD_eq_getElem hj, hb]

/-- A command without fields is decoded from the argument 0 (R92). -/
theorem decodePlain_argument {a : BitVec 8} {i j : Instr} (h : decodePlain a j = .legal i) : i = j ∧ a = 0 := by
  unfold decodePlain at h
  split_ifs at h with ha
  cases h; exact ⟨rfl, ha⟩

/-- SET_MODE is decoded from a mode other than 11 (R92, R93). -/
theorem decodeSetMode_argument {a : BitVec 8} {i : Instr} (h : decodeSetMode a = .legal i) :
    ∃ mm, i = .setMode mm ∧ mm ≠ 0b11#2 ∧ a = mm.setWidth 8 := by
  unfold decodeSetMode at h
  split_ifs at h with ha hm
  cases h; exact ⟨_, rfl, hm, (setWidth_extractLsb'_eq_self ha).symm⟩

/-- A field of one bit. -/
theorem extractLsb'_one {w : Nat} (a : BitVec w) (k : Nat) : a.extractLsb' k 1 = BitVec.ofBool (a.getLsbD k) := by
  ext j hj
  obtain rfl : j = 0 := by omega
  simp

/-- REQUEST_STOP_ON_FLUSH is decoded from its flag (R92). -/
theorem decodeRequestStop_argument {a : BitVec 8} {i : Instr} (h : decodeRequestStop a = .legal i) :
    ∃ b, i = .requestStopOnFlush b ∧ a = (BitVec.ofBool b).setWidth 8 := by
  unfold decodeRequestStop at h
  split_ifs at h with ha
  cases h
  exact ⟨_, rfl, by rw [← extractLsb'_one, setWidth_extractLsb'_eq_self ha]⟩

/-- DEMUX_INIT is decoded from its tag (R92). -/
theorem decodeDemuxInit_argument {a : BitVec 8} {i : Instr} (h : decodeDemuxInit a = .legal i) :
    ∃ t, i = .demuxInit t ∧ a = t.setWidth 8 := by
  unfold decodeDemuxInit at h
  split_ifs at h with ha
  cases h
  exact ⟨_, rfl, (setWidth_extractLsb'_eq_self (by rw [extractLsb'_one, ha]; rfl)).symm⟩

/-- A word with the opcode of a command without fields carries that command, if its argument is accepted. -/
theorem carriedBy_of_decodePlain {c : Command} {i j : Instr} (h : decodePlain c.cmd.arg j = .legal i)
    (ho : c.cmd.op = j.opcode) (hw : j.wellFormed = true) (ha : j.argument = 0) (hd : j.dataOr c.data = c.data) :
    i.CarriedBy c := by
  obtain ⟨rfl, e⟩ := decodePlain_argument h
  exact ⟨hw, ho.symm, ha.trans e.symm, hd⟩

/-- A decoded command is carried by its word: the arms of the decoder in the order of the opcodes (R91). -/
theorem carriedBy_of_decode {c : Command} {i : Instr} (h : decode c = .legal i) : i.CarriedBy c := by
  unfold decode at h
  obtain ⟨ho, h⟩ | ⟨-, h⟩ := ite_eq_iff.1 h
  · obtain ⟨mm, rfl, hm, e⟩ := decodeSetMode_argument h
    exact ⟨by simpa [Instr.wellFormed] using hm, ho.symm, e.symm, rfl⟩
  iterate 9
    obtain ⟨ho, h⟩ | ⟨-, h⟩ := ite_eq_iff.1 h
    · exact carriedBy_of_decodePlain h ho rfl rfl rfl
  obtain ⟨ho, h⟩ | ⟨-, h⟩ := ite_eq_iff.1 h
  · obtain ⟨b, rfl, e⟩ := decodeRequestStop_argument h
    exact ⟨rfl, ho.symm, e.symm, rfl⟩
  obtain ⟨ho, h⟩ | ⟨-, h⟩ := ite_eq_iff.1 h
  · exact carriedBy_of_decodePlain h ho rfl rfl rfl
  obtain ⟨ho, h⟩ | ⟨-, h⟩ := ite_eq_iff.1 h
  · obtain ⟨t, rfl, e⟩ := decodeDemuxInit_argument h
    exact ⟨rfl, ho.symm, e.symm, rfl⟩
  iterate 3
    obtain ⟨ho, h⟩ | ⟨-, h⟩ := ite_eq_iff.1 h
    · exact carriedBy_of_decodePlain h ho rfl rfl rfl
  cases h

/-- A carried command is what its word decodes to. -/
theorem Instr.CarriedBy.decode_eq {c : Command} {i : Instr} (h : i.CarriedBy c) : decode c = .legal i := by
  obtain ⟨hw, ho, ha, hd⟩ := h
  unfold decode
  dsimp only
  rw [← ho, ← ha]
  cases i with
  | setMode mm => show decodeSetMode _ = _; clear ho ha hd; revert mm; decide
  | requestStopOnFlush b => cases b <;> rfl
  | demuxInit t => show decodeDemuxInit _ = _; clear ho ha hd hw; revert t; decide
  | demuxFeed w => show decodePlain 0 (.demuxFeed c.data) = _; rw [← hd]; rfl
  | _ => rfl

/-- A word decodes to the well-formed command whose encoding it is, in CMD and, where the command reads it, in
DATA. -/
theorem decode_eq_legal_iff {c : Command} {i : Instr} :
    decode c = .legal i ↔ i.wellFormed = true ∧ (encode i).cmd = c.cmd ∧ i.dataOr c.data = c.data :=
  ⟨fun h => Instr.carriedBy_iff.1 (carriedBy_of_decode h), fun h => (Instr.carriedBy_iff.2 h).decode_eq⟩

/-- The word of SET_MODE with mode 11 is illegal, whatever DATA holds (R93). -/
theorem illegal_of_mode11 {c : Command} (h : c.cmd = 0x0103) : ∃ e, decode c = .illegal e :=
  ⟨.illegalMode, by simp [decode, h, CmdWord.op, CmdWord.arg, decodeSetMode]⟩

end Sys2Proof
end

section
/-! PROOFS. The rows of the opcode table (spec/30_encoding.md R92): which words their patterns admit. -/

namespace Sys2Proof

/-- Two patterns that admit one word agree where both fix a bit. -/
theorem patterns_agree {r q : OpRow} {c : CmdWord} (hr : r.admits c = true) (hq : q.admits c = true) :
    r.pattern &&& q.mask = q.pattern &&& r.mask := by
  rw [← eq_of_beq hr, ← eq_of_beq hq, BitVec.and_assoc, BitVec.and_assoc, BitVec.and_comm r.mask]

/-- No two rows of the table agree so (R92): their opcodes differ. -/
theorem row_eq_of_patterns_agree : ∀ r ∈ opRows, ∀ q ∈ opRows, r.pattern &&& q.mask = q.pattern &&& r.mask → r = q := by
  decide

/-- A word is the fixed bits above a field with the field put in. -/
theorem eq_or_setWidth_of_and {w : Nat} {c p : BitVec w} (k : Nat) (h : c &&& (BitVec.allOnes w <<< k) = p) :
    c = p ||| (c.setWidth k).setWidth w := by
  subst h
  ext j hj
  by_cases hjk : j < k
  · simp [hjk, BitVec.getLsbD_eq_getElem hj]
  · simp [hjk]

/-- A well-formed command's row admits its encoding: the statements of Laws/PerInstr.lean together. -/
theorem encoding_admitted (i : Instr) : Laws.Encoding.Statement i := by
  cases i with
  | setMode mm => exact Laws.Encoding.setMode mm
  | enableCapture => exact Laws.Encoding.enableCapture
  | disableCapture => exact Laws.Encoding.disableCapture
  | readOne => exact Laws.Encoding.readOne
  | isFull => exact Laws.Encoding.isFull
  | isEmpty => exact Laws.Encoding.isEmpty
  | isReady => exact Laws.Encoding.isReady
  | isTriggered => exact Laws.Encoding.isTriggered
  | fillLevel => exact Laws.Encoding.fillLevel
  | fifoSize => exact Laws.Encoding.fifoSize
  | requestStopOnFlush b => exact Laws.Encoding.requestStopOnFlush b
  | triggerManualFlush => exact Laws.Encoding.triggerManualFlush
  | demuxInit t => exact Laws.Encoding.demuxInit t
  | demuxFeed w => exact Laws.Encoding.demuxFeed w
  | demuxStatus => exact Laws.Encoding.demuxStatus
  | getState => exact Laws.Encoding.getState

/-- A word that meets a pattern is the encoding of a command, with any DATA (R92). -/
theorem exists_encode_of_admits {r : OpRow} {c : CmdWord} (hr : r ∈ opRows) (h : r.admits c = true) (d : Word32) :
    ∃ i : Instr, (encode i).cmd = c ∧ i.dataOr d = d := by
  have fixed {i : Instr} (hc : c &&& BitVec.allOnes 16 = (encode i).cmd) (hd : i.dataOr d = d) :
      ∃ i : Instr, (encode i).cmd = c ∧ i.dataOr d = d := ⟨i, by rw [← hc, BitVec.and_allOnes], hd⟩
  have h := eq_of_beq h
  simp only [opRows, List.mem_cons, List.not_mem_nil, or_false] at hr
  rcases hr with rfl | rfl | rfl | rfl | rfl | rfl | rfl | rfl | rfl | rfl | rfl | rfl | rfl | rfl | rfl | rfl
  · exact ⟨.setMode (c.setWidth 2), (eq_or_setWidth_of_and 2 h).symm, rfl⟩
  · exact fixed (i := .enableCapture) h rfl
  · exact fixed (i := .disableCapture) h rfl
  · exact fixed (i := .readOne) h rfl
  · exact fixed (i := .isFull) h rfl
  · exact fixed (i := .isEmpty) h rfl
  · exact fixed (i := .isReady) h rfl
  · exact fixed (i := .isTriggered) h rfl
  · exact fixed (i := .fillLevel) h rfl
  · exact fixed (i := .fifoSize) h rfl
  · have hb (b : Bool) : (encode (.requestStopOnFlush b)).cmd = 0x0B00 ||| (BitVec.ofBool b).setWidth 16 := by
      cases b <;> rfl
    exact ⟨.requestStopOnFlush (c.getLsbD 0), by rw [hb, ← BitVec.setWidth_one]; exact (eq_or_setWidth_of_and 1 h).symm,
      rfl⟩
  · exact fixed (i := .triggerManualFlush) h rfl
  · exact ⟨.demuxInit (c.setWidth 7), (eq_or_setWidth_of_and 7 h).symm, rfl⟩
  · exact fixed (i := .demuxFeed d) h rfl
  · exact fixed (i := .demuxStatus) h rfl
  · exact fixed (i := .getState) h rfl

/-- A legal word meets the pattern of the row of the command it decodes to (R92). -/
theorem row_of_decode {c : Command} {i : Instr} (h : decode c = .legal i) :
    ∃ r ∈ opRows, r.mnemonic = i.mnemonic ∧ r.admits c.cmd = true := by
  obtain ⟨hw, hc, -⟩ := decode_eq_legal_iff.1 h
  obtain ⟨r, hr, hm, ha⟩ := encoding_admitted i
  exact ⟨r, hr, hm, hc ▸ ha hw⟩

/-- A word that meets no pattern is illegal (R93). -/
theorem illegal_of_no_row {c : Command} (h : ∀ r ∈ opRows, r.admits c.cmd = false) : ∃ e, decode c = .illegal e := by
  cases hd : decode c with
  | illegal e => exact ⟨e, rfl⟩
  | legal i =>
    obtain ⟨r, hr, -, ha⟩ := row_of_decode hd
    exact absurd ha (Bool.eq_false_iff.1 (h r hr))

/-- Only SET_MODE has an ill-formed operand, mode 11 (R93). -/
theorem setMode11_of_not_wellFormed {i : Instr} (h : i.wellFormed = false) : i = .setMode 0b11 := by
  cases i with
  | setMode mm => simpa [Instr.wellFormed] using h
  | _ => cases h

end Sys2Proof
end

section
/-! PROOFS. The assembler's operand forms (spec/30_encoding.md R96): which operands each accepts, and what they give. -/

namespace Sys2Proof

/-- A command without an operand accepts none. -/
theorem assemblePlain_eq_some {i j : Instr} {o : AsmOperand} :
    assemblePlain j o = some i ↔ o = .absent ∧ j = i := by
  cases o <;> simp [assemblePlain]

/-- SET_MODE accepts the three mode names and their numbers. -/
theorem assembleSetMode_eq_some {i : Instr} {o : AsmOperand} : assembleSetMode o = some i ↔
    ((o = .modeName .circular ∨ o = .number 0) ∧ i = .setMode 0b00) ∨
    ((o = .modeName .software ∨ o = .number 1) ∧ i = .setMode 0b01) ∨
    ((o = .modeName .hardware ∨ o = .number 2) ∧ i = .setMode 0b10) := by
  cases o with
  | absent => simp [assembleSetMode]
  | boolName b => simp [assembleSetMode]
  | modeName m => cases m <;> simp [assembleSetMode, ModeName.bits, eq_comm]
  | number n =>
    by_cases h : n < 3
    · interval_cases n <;> simp [assembleSetMode, eq_comm]
    · simp [assembleSetMode, h, show n ≠ 0 by omega, show n ≠ 1 by omega, show n ≠ 2 by omega]

/-- REQUEST_STOP_ON_FLUSH accepts the two truth values and their numbers. -/
theorem assembleRequestStop_eq_some {i : Instr} {o : AsmOperand} : assembleRequestStop o = some i ↔
    ((o = .boolName true ∨ o = .number 1) ∧ i = .requestStopOnFlush true) ∨
    ((o = .boolName false ∨ o = .number 0) ∧ i = .requestStopOnFlush false) := by
  cases o with
  | absent => simp [assembleRequestStop]
  | modeName m => simp [assembleRequestStop]
  | boolName b => cases b <;> simp [assembleRequestStop, eq_comm]
  | number n =>
    by_cases h : n < 2
    · interval_cases n <;> simp [assembleRequestStop, eq_comm]
    · simp [assembleRequestStop, h, show n ≠ 0 by omega, show n ≠ 1 by omega]

/-- DEMUX_INIT accepts the numbers that fit a tag. -/
theorem assembleDemuxInit_eq_some {i : Instr} {o : AsmOperand} :
    assembleDemuxInit o = some i ↔ ∃ n < 128, o = .number n ∧ i = .demuxInit (BitVec.ofNat 7 n) := by
  cases o <;> simp [assembleDemuxInit, eq_comm]

/-- DEMUX_FEED accepts the numbers that fit a word. -/
theorem assembleDemuxFeed_eq_some {i : Instr} {o : AsmOperand} :
    assembleDemuxFeed o = some i ↔ ∃ n < 2 ^ 32, o = .number n ∧ i = .demuxFeed (BitVec.ofNat 32 n) := by
  cases o <;> simp [assembleDemuxFeed, eq_comm]

/-- A mnemonic whose command has no field gives that command, written without an operand. -/
theorem assemble_plain_eq_some {m : Mnemonic} {o : AsmOperand} {i : Instr} (h1 : m ≠ .SET_MODE)
    (h2 : m ≠ .REQUEST_STOP_ON_FLUSH) (h3 : m ≠ .DEMUX_INIT) (h4 : m ≠ .DEMUX_FEED) :
    assemble m o = some i ↔ o = .absent ∧ i.mnemonic = m := by
  cases m with
  | SET_MODE => contradiction
  | REQUEST_STOP_ON_FLUSH => contradiction
  | DEMUX_INIT => contradiction
  | DEMUX_FEED => contradiction
  | _ => exact assemblePlain_eq_some.trans (and_congr_right fun _ => by cases i <;> simp [Instr.mnemonic])

end Sys2Proof
end

section
/-! PROOFS. The register codec, bit by bit (spec/30_encoding.md R82 to R89). -/

namespace Sys2Proof.Machine

/-- The mask of R82 has the bits from 2 on. -/
theorem modeMask_getLsbD : ∀ k < 32, (0xFFFFFFFC : Word32).getLsbD k = decide (2 ≤ k) := by decide

/-- The mask of R85 has all bits but 6 and 12. -/
theorem sofMask_getLsbD : ∀ k < 32, (0xFFFFEFBF : Word32).getLsbD k = decide (k ≠ 6 ∧ k ≠ 12) := by decide

/-- The word of SET_MODE has the mode below bit 2 and the word read from there on (R82). -/
theorem encodeMode_getLsbD (v : Word32) (m : Bits2) {k : Nat} (hk : k < 32) :
    (encodeMode v m).getLsbD k = if k < 2 then m.getLsbD k else v.getLsbD k := by
  rw [encodeMode, BitVec.getLsbD_or, BitVec.getLsbD_and, modeMask_getLsbD k hk, BitVec.getLsbD_setWidth]
  split_ifs with h
  · simp [h, hk]
  · simp [Nat.not_lt.1 h]

/-- The bit that REQUEST_STOP_ON_FLUSH puts in is at 12 (R85). -/
theorem sofBit_getLsbD : ∀ b : Bool, ∀ k < 32,
    (if b then 0x00001000 else 0x00000000 : Word32).getLsbD k = (decide (k = 12) && b) := by decide

/-- The bit that TRIGGER_MANUAL_FLUSH puts in is at 6 (R86). -/
theorem flushBit_getLsbD : ∀ k < 32, (0x00000040 : Word32).getLsbD k = decide (k = 6) := by decide

/-- Words that agree under a mask agree in every bit of it. -/
theorem getLsbD_congr_of_and {w : Nat} {v u m : BitVec w} (h : v &&& m = u &&& m) {k : Nat} (hk : m.getLsbD k = true) :
    v.getLsbD k = u.getLsbD k := by
  simpa [hk] using congrArg (·.getLsbD k) h

end Sys2Proof.Machine
end

section
/-! PROOFS. The stop sequence (spec/30_encoding.md R97, spec/42_lifecycle_fsm.md R170). -/

namespace Sys2Proof.Machine

/-- REQUEST_STOP_ON_FLUSH whose transactions complete (R141). -/
theorem exec_requestStop_done {b : Bool} {s : State} (hf : s.C.fault = .noFault) (h1 : s.env.next.ok = true)
    (h2 : s.env.advance.next.ok = true) :
    exec (.requestStopOnFlush b) s = .next (((afterWrite .FFCR (encodeFFCRsof (s.readValue .FFCR) b) true true
      (afterRead .FFCR (some (s.readValue .FFCR)) s)).updateC (lifecycleRequestStop b)).respond (.ok .unit)) := by
  rw [exec, execRequestStopOnFlush, runController_runs _ _ _ rfl hf, requestStopOnFlushBody_eq, if_pos h1, if_pos h2,
    respond_done]

/-- TRIGGER_MANUAL_FLUSH whose transactions complete, the request being seen in the word read (R142, R160). -/
theorem exec_trigger_done {s : State} (hf : s.C.fault = .noFault) (h1 : s.env.next.ok = true)
    (h2 : s.env.advance.next.ok = true) (hv : (s.readValue .FFCR).getLsbD 12 = true) :
    exec .triggerManualFlush s = .next (((afterWrite .FFCR (encodeFFCRflush (s.readValue .FFCR)) true true
      (afterRead .FFCR (some (s.readValue .FFCR)) s)).updateC lifecycleTrigger).respond (.ok .unit)) := by
  rw [exec, execTriggerManualFlush, runController_runs _ _ _ rfl hf, triggerBody_eq, if_pos h1,
    if_neg fun h => Bool.false_ne_true (h.2.2.symm.trans hv), if_pos h2, respond_done]

/-- A stop request and then the trigger of the flush, while capturing, enter Stopping (R161, R163). -/
theorem lifecycleTrigger_requestStop {c : Controller} (h : c.phase = .armed ∨ c.phase = .full) :
    lifecycleTrigger (lifecycleRequestStop true c) = enterStopping { c with sofReq := true } := by
  rcases h with h | h <;> simp [lifecycleRequestStop, lifecycleTrigger, enterStopping, Phase.capturing, h]

end Sys2Proof.Machine
end

section
/-! PROOFS. The obligations of spec/30_encoding.md. -/

namespace Sys2Proof.Claims

open Sys2Proof.Machine

/-- Settles O1: the decoder reads exactly what the encoder writes (`decode_eq_legal_iff`). -/
theorem decodeEncodeRoundTrip : Obligations.DecodeEncodeRoundTrip :=
  fun i h => decode_eq_legal_iff.2 ⟨h, rfl, dataOr_encode_data i⟩

/-- Settles O2, the other direction of `decode_eq_legal_iff`. -/
theorem decodedCommandReencodes : Obligations.DecodedCommandReencodes := by
  intro c i h
  obtain ⟨hw, hc, hd⟩ := decode_eq_legal_iff.1 h
  exact ⟨hw, hc, fun w hi => by rwa [hi] at hd⟩

/-- Settles O3: the patterns pairwise differ in a bit both fix, each command's row admits its encoding, and a word a row
admits is an encoding, of a well-formed command unless its mode is 11. -/
theorem legalWordsAreThePatterns : Obligations.LegalWordsAreThePatterns := by
  refine ⟨fun r hr q hq c hrc hqc => row_eq_of_patterns_agree r hr q hq (patterns_agree hrc hqc),
    fun c i => row_of_decode, fun c ⟨r, hr, hc⟩ hne => ?_⟩
  obtain ⟨i, hi, hd⟩ := exists_encode_of_admits hr hc c.data
  refine ⟨i, decode_eq_legal_iff.2 ⟨?_, hi, hd⟩⟩
  by_contra hw
  cases setMode11_of_not_wellFormed (Bool.eq_false_iff.2 hw)
  exact hne hi.symm

/-- Settles O4: such a word does not decode, and the step rejects it. -/
theorem illegalWordChangesNothing : Obligations.IllegalWordChangesNothing := by
  intro s c hr hp hc
  obtain ⟨e, he⟩ : ∃ e, decode c = .illegal e := hc.elim illegal_of_no_row illegal_of_mode11
  have hs : step s = .next (s.acceptCommand.rejectIllegal c.cmd) := by simp [step, hr, hp, runCommand, he]
  exact hs

/-- Settles O6, from what each operand form accepts; the forms give every field its values. -/
theorem assemblerCoversCommands : Obligations.AssemblerCoversCommands := by
  refine ⟨fun m o i h => ?_, fun i h => ?_, fun _ _ => assembleSetMode_eq_some, fun _ _ => assembleRequestStop_eq_some,
    fun _ _ => assembleDemuxInit_eq_some, fun _ _ => assembleDemuxFeed_eq_some,
    fun _ _ _ => assemble_plain_eq_some⟩
  · cases m with
    | SET_MODE => rcases assembleSetMode_eq_some.1 h with ⟨-, rfl⟩ | ⟨-, rfl⟩ | ⟨-, rfl⟩ <;> exact ⟨rfl, rfl⟩
    | REQUEST_STOP_ON_FLUSH => rcases assembleRequestStop_eq_some.1 h with ⟨-, rfl⟩ | ⟨-, rfl⟩ <;> exact ⟨rfl, rfl⟩
    | DEMUX_INIT => obtain ⟨n, -, -, rfl⟩ := assembleDemuxInit_eq_some.1 h; exact ⟨rfl, rfl⟩
    | DEMUX_FEED => obtain ⟨n, -, -, rfl⟩ := assembleDemuxFeed_eq_some.1 h; exact ⟨rfl, rfl⟩
    | _ => obtain ⟨-, rfl⟩ := assemblePlain_eq_some.1 h; exact ⟨rfl, rfl⟩
  · cases i with
    | setMode mm => exact ⟨.number mm.toNat, by revert mm; decide⟩
    | requestStopOnFlush b => exact ⟨.boolName b, rfl⟩
    | demuxInit t => exact ⟨.number t.toNat, assembleDemuxInit_eq_some.2 ⟨_, t.isLt, rfl, by simp⟩⟩
    | demuxFeed w => exact ⟨.number w.toNat, assembleDemuxFeed_eq_some.2 ⟨_, w.isLt, rfl, by simp⟩⟩
    | _ => exact ⟨.absent, rfl⟩

/-- Settles O44: the lawful device shows the request it was written (O52), so the trigger's check passes. -/
theorem stopSequenceEntersStopping : Obligations.StopSequenceEntersStopping := by
  intro s t hl hf hp h1 h2 h3 h4 h
  obtain rfl : t = _ := Host.Outcome.next.inj (h.symm.trans (exec_requestStop_done hf h1 h2))
  have hf' := (lifecycleRequestStop_update true s.C).fault.trans hf
  refine ⟨_, exec_trigger_done hf' h3 h4 (writtenFieldsReadBack.2 s _ true hl h rfl), ?_⟩
  simp [lifecycleTrigger_requestStop hp, enterStopping, hf]

/-- Settles O5: the decoder runs on each word. -/
theorem tableWordsDecode : Obligations.TableWordsDecode := by
  unfold Obligations.TableWordsDecode
  decide

/-- Settles O8, bit by bit. -/
theorem encodeModeKeepsReservedBits : Obligations.EncodeModeKeepsReservedBits := by
  intro v m
  constructor <;> ext k hk
  · simp [← BitVec.getLsbD_eq_getElem, encodeMode_getLsbD v m (show k < 32 by omega), hk]
  · simp [← BitVec.getLsbD_eq_getElem, encodeMode_getLsbD v m (show 2 + k < 32 by omega), hk, show ¬ 2 + k < 2 by omega]

/-- Settles O9, from the bits of the two masks and of the bits put in. -/
theorem flushControlWordsBitByBit : Obligations.FlushControlWordsBitByBit := by
  intro v b i hi
  constructor
  · rw [encodeFFCRsof, BitVec.getLsbD_or, BitVec.getLsbD_and, sofMask_getLsbD i hi, sofBit_getLsbD b i hi]
    split_ifs with h12 h6
    · simp [h12]
    · simp [h6]
    · simp [h12, h6]
  · rw [encodeFFCRflush, BitVec.getLsbD_or, flushBit_getLsbD i hi]
    split_ifs with h <;> simp [h]

/-- Settles O10: each flag is a bit of the mask. -/
theorem reservedBitsAreIgnored : Obligations.ReservedBitsAreIgnored := by
  refine ⟨fun v u h => ?_, fun v u h => ?_, fun v => ⟨rfl, rfl⟩⟩
  · simp only [decodeStatus, StatusFlags.mk.injEq]
    exact ⟨getLsbD_congr_of_and h rfl, getLsbD_congr_of_and h rfl, getLsbD_congr_of_and h rfl,
      getLsbD_congr_of_and h rfl⟩
  · simp only [decodeFFCR, FlushFlags.mk.injEq]
    exact ⟨getLsbD_congr_of_and h rfl, getLsbD_congr_of_and h rfl⟩

/-- Settles O11: four times a 32-bit count stays below 2^34. -/
theorem drainedWordsAndByteCountsExact : Obligations.DrainedWordsAndByteCountsExact := by
  refine ⟨fun v => rfl, fun n => ?_⟩
  rw [wordsToBytes, BitVec.toNat_shiftLeft, BitVec.toNat_setWidth, Nat.shiftLeft_eq]
  omega

end Sys2Proof.Claims
end

section
/-! PROOFS. The lifecycle procedures as one change of `C` each, field by field (spec/42_lifecycle_fsm.md R153 to R161),
and what a lawful read makes of the two size registers (spec/20_memory.md R67, R68). -/

namespace Sys2Proof.Machine

/-- ENABLE_CAPTURE from Disabled keeps the lifecycle only where a mode was set (R153). -/
theorem lifecycleEnable_eq (c : Controller) :
    lifecycleEnable c =
      if c.phase = .disabled then
        { c with phase := .armed, sofReq := false, drainedWords := 0, readyLast := false,
                 lifecycleOk := if c.modeSet then c.lifecycleOk else false }
      else { c with readyLast := false } := by
  cases hm : c.modeSet <;> simp [lifecycleEnable, hm]

/-- DISABLE_CAPTURE outside Disabled enters it, keeping the lifecycle from Drained alone (R154, R162). -/
theorem lifecycleDisable_eq (c : Controller) :
    lifecycleDisable c =
      if c.phase = .disabled then { c with readyLast := false }
      else { c with phase := .disabled, modeSet := false, sofReq := false, readyLast := false, drainedWords := 0,
                    lifecycleOk := if c.phase = .drained then c.lifecycleOk else false } := by
  cases hp : c.phase <;> simp [lifecycleDisable, enterDisabled, hp]

/-- A ready observation counts in Stopping alone (R157). -/
theorem lifecycleIsReady_eq (b : Bool) (c : Controller) :
    lifecycleIsReady b c = { c with readyLast := if c.phase = .stopping then b else false } := by
  by_cases hp : c.phase = .stopping <;> simp [lifecycleIsReady, hp]

/-- REQUEST_STOP_ON_FLUSH records the request while capturing; withdrawing it in Stopping breaks the lifecycle (R159). -/
theorem lifecycleRequestStop_eq (b : Bool) (c : Controller) :
    lifecycleRequestStop b c =
      { c with
        readyLast := false
        sofReq := if c.phase = .armed ∨ c.phase = .full then b else c.sofReq
        lifecycleOk := if c.phase = .stopping ∧ b = false then false else c.lifecycleOk } := by
  cases hp : c.phase <;> cases b <;> simp [lifecycleRequestStop, hp]

theorem capturing_iff (p : Phase) : p.capturing = true ↔ p = .armed ∨ p = .full := by
  cases p <;> decide

/-- TRIGGER_MANUAL_FLUSH enters Stopping when the request was made, while capturing (R161, R163). -/
theorem lifecycleTrigger_eq (c : Controller) :
    lifecycleTrigger c =
      if c.phase = .armed ∨ c.phase = .full then
        if c.sofReq = true then { c with phase := .stopping, readyLast := false, drainedWords := 0 }
        else { c with lifecycleOk := false, readyLast := false }
      else { c with readyLast := false } := by
  simp only [lifecycleTrigger, capturing_iff, enterStopping]

/-- A lawful device answers RSZ_WORDS to a read of Size (R67). -/
theorem readValue_SIZE {s : State} (h : s.dev.lawful = true) : s.readValue .SIZE = s.params.rszWords := by
  simp [State.readValue, Device.answer, h, Device.lawfulAnswer]

/-- A lawful device answers 0 to a read of Current fill level while capture is disabled (R68). -/
theorem readValue_CFILL_of_disabled {s : State} (h : s.dev.lawful = true) (hd : s.dev.captureEnabled = false) :
    s.readValue .CFILL = 0 := by
  simp [State.readValue, Device.answer, h, Device.lawfulAnswer, hd]

end Sys2Proof.Machine
end

section
/-! PROOFS. The command words of SET_MODE and REQUEST_STOP_ON_FLUSH that carry no command (spec/30_encoding.md R92, R93). -/

namespace Sys2Proof

/-- SET_MODE's opcode with an argument that is no mode (R92, R93). -/
theorem decode_setMode_illegal {arg : BitVec 8} (h : 3 ≤ arg.toNat) (data : Word32) :
    ∃ e, decode ⟨0x01#8 ++ arg, data⟩ = .illegal e := by
  have hd : decode ⟨0x01#8 ++ arg, data⟩ = decodeSetMode arg := by
    simp only [decode, CmdWord.op_append, CmdWord.arg_append]; rfl
  have hlt : ∀ mm : Bits2, mm ≠ 0b11#2 → (mm.setWidth 8).toNat < 3 := by decide
  rw [hd]
  cases hl : decodeSetMode arg with
  | illegal e => exact ⟨e, rfl⟩
  | legal i =>
    obtain ⟨mm, -, hm, rfl⟩ := decodeSetMode_argument hl
    exact absurd h (Nat.not_le.2 (hlt mm hm))

/-- REQUEST_STOP_ON_FLUSH's opcode with an argument that is no flag (R92). -/
theorem decode_requestStop_illegal {arg : BitVec 8} (h : 2 ≤ arg.toNat) (data : Word32) :
    decode ⟨0x0B#8 ++ arg, data⟩ = .illegal .reservedBits := by
  have hd : decode ⟨0x0B#8 ++ arg, data⟩ = decodeRequestStop arg := by
    simp only [decode, CmdWord.op_append, CmdWord.arg_append]; rfl
  have ha : arg.extractLsb' 1 7 ≠ 0 := by
    intro h0
    have hlt := (arg.extractLsb' 0 1).isLt
    rw [← setWidth_extractLsb'_eq_self h0, BitVec.toNat_setWidth] at h
    omega
  rw [hd, decodeRequestStop, if_neg ha]

end Sys2Proof
end

section
/-! PROOFS. The whole end of a controller command by the shape of its body: one read, one write of Control, or a read
and a write of one register (spec/41_controller_ops.md R130 to R142). -/

namespace Sys2Proof.Claims

open Sys2Proof.Machine

/-- A body stands for one command, whose execution is that body under the wrapper (R130). -/
theorem exec_eq_runController_body {i : Instr} {body : State → Result RspValue} (hb : HasBody i body) (s : State) :
    exec i s = .next (runController i body s) := by
  cases hb <;> rfl

/-- With no fault latched a legal controller command ends as its body does (R130). -/
theorem exec_eq_respond {i : Instr} {body : State → Result RspValue} {s : State} (hb : HasBody i body)
    (hw : i.wellFormed = true) (hf : s.C.fault = .noFault) : exec i s = .next (body s).respond := by
  rw [exec_eq_runController_body hb, runController_runs i body s hw hf]

/-- With a fault latched every legal controller command is refused (R224). -/
theorem refusedWhenLatched {i : Instr} {body : State → Result RspValue} (hb : HasBody i body)
    (hw : i.wellFormed = true) : RefusedWhenLatched i := by
  intro s hf
  rw [exec_eq_runController_body hb, runController_aborted i body s hw hf]; rfl

/-- The word of a legal controller command decodes to it, whatever DATA holds (R90, R92). -/
theorem decode_encodedCmd {i : Instr} {body : State → Result RspValue} {word : CmdWord} (hb : HasBody i body)
    (hw : i.wellFormed = true) (hc : (encode i).cmd = word) (data : Word32) : decode ⟨word, data⟩ = .legal i :=
  decode_eq_legal_iff.2 ⟨hw, hc, by cases hb <;> rfl⟩

/-- A command that issued a read and then a write of one register has ended. -/
theorem respond_afterReadWrite (s : State) (reg : RegName) (v w : Word32) (ok took : Bool) (g : Controller → Controller)
    (r : Response) :
    State.respond r ((afterWrite reg w ok took (afterRead reg (some v) s)).updateC g) =
      ended s (g s.C) (if took then s.dev.written reg w else s.dev)
        [readAt s reg reg.off (some v), writeAt s reg reg.off w ok took] r := by
  rw [ended, List.append_cons]; rfl

/-- The same where the command ends by latching a fault (R225). -/
theorem respond_latch_afterReadWrite (s : State) (reg : RegName) (v w : Word32) (ok took : Bool) (f : SessionFault)
    (r : Response) :
    State.respond r (latch f (afterWrite reg w ok took (afterRead reg (some v) s))) =
      ended s { s.C with fault := f } (if took then s.dev.written reg w else s.dev)
        [readAt s reg reg.off (some v), writeAt s reg reg.off w ok took] r :=
  respond_afterReadWrite s reg v w ok took (fun c => { c with fault := f }) r

/-- A body that ends at its failed read gives the command that end (R222). -/
theorem readFailureEnds {i : Instr} {body : State → Result RspValue} {reg : RegName} (hb : HasBody i body)
    (hw : i.wellFormed = true)
    (h : ∀ s, s.env.next.ok = false →
      body s = .raised (.transportError reg .R) (latch (.transport reg .R) (afterRead reg none s))) :
    ReadFailureEnds i reg reg.off := by
  intro s hf hk
  rw [exec_eq_respond hb hw hf, h s hk]; rfl

/-- A command whose body is one load and a pure end is a single read (R135 to R140). -/
theorem singleReadCommand {i : Instr} {reg : RegName} {f : Word32 → RspValue} {g : Word32 → Controller → Controller}
    (hb : HasBody i fun s => (load reg s).andThen fun v t => .done (f v) (t.updateC (g v)))
    (hw : i.wellFormed = true) : SingleReadCommand i (encode i).cmd reg reg.off f g := by
  refine ⟨decode_encodedCmd hb hw rfl, refusedWhenLatched hb hw, readFailureEnds hb hw fun s hk => ?_,
    fun s hf hk => ?_⟩
  · simp [loadBody_eq, hk]
  · rw [exec_eq_respond hb hw hf, loadBody_eq, if_pos hk]; rfl

/-- A command whose body is one store to Control and a pure end is a single write of Control (R132, R133). -/
theorem controlWriteCommand {i : Instr} {w : Word32} {g : Controller → Controller}
    (hb : HasBody i fun s => (store .CTL w s).andThen fun _ t => .done .unit (t.updateC g))
    (hw : i.wellFormed = true) : ControlWriteCommand i (encode i).cmd w g := by
  refine ⟨decode_encodedCmd hb hw rfl, refusedWhenLatched hb hw, fun s hf hk => ?_, fun s hf hk => ?_⟩
  · rw [exec_eq_respond hb hw hf, storeBody_eq, if_neg (by simp [hk])]; rfl
  · rw [exec_eq_respond hb hw hf, storeBody_eq, if_pos hk]; rfl

/-- A command whose body is an RMW and a pure end, once its read has completed: its write completes, or it fails and the
device took the word or not, as drawn (R131, R141, R76). -/
theorem rmwCommand_ends {i : Instr} {reg : RegName} {f : Word32 → Word32} {g : Controller → Controller} {s : State}
    (hb : HasBody i fun s => (rmw reg f s).andThen fun _ t => .done .unit (t.updateC g)) (hw : i.wellFormed = true)
    (hf : s.C.fault = .noFault) (h1 : firstOk s) :
    let v := s.readValue reg
    let took := s.env.advance.next.took
    (secondOk s → exec i s = .next (ended s (g s.C) (s.dev.written reg (f v))
      [readAt s reg reg.off (some v), writeAt s reg reg.off (f v) true true] (.ok .unit))) ∧
    (¬ secondOk s → exec i s = .next (ended s { s.C with fault := .transport reg .W }
      (if took then s.dev.written reg (f v) else s.dev)
      [readAt s reg reg.off (some v), writeAt s reg reg.off (f v) false took] (.err (.transportError reg .W)))) := by
  intro v took
  rw [exec_eq_respond hb hw hf, rmwBody_eq, if_pos h1]
  constructor <;> intro h2
  · rw [if_pos h2, respond_done, respond_afterReadWrite, if_pos rfl]
  · rw [if_neg h2, respond_raised, respond_latch_afterReadWrite]

/-- A byte count is four times the word count (R89, O11). -/
theorem ofNat_four_mul_eq_wordsToBytes (n : Word32) : BitVec.ofNat 34 (4 * n.toNat) = wordsToBytes n := by
  rw [← drainedWordsAndByteCountsExact.2 n, BitVec.ofNat_toNat, BitVec.setWidth_eq]

end Sys2Proof.Claims
end

section
/-! PROOFS. The obligations of spec/41_controller_ops.md. -/

namespace Sys2Proof.Claims

open Sys2Proof.Machine

/-- Settles O12: an RMW of Mode (`rmwCommand_ends`) with the word of R82 and the update of R152. -/
theorem setModeWritesModeField : Obligations.SetModeWritesModeField := by
  refine ⟨fun arg data h => decode_setMode_illegal h data, fun mm hm => ?_⟩
  have hw : (Instr.setMode mm).wellFormed = true := bne_iff_ne.2 hm
  exact ⟨decode_encodedCmd (.setMode mm) hw rfl, refusedWhenLatched (.setMode mm) hw,
    readFailureEnds (.setMode mm) hw fun s hk => by simp [setModeBody_eq, hk],
    fun s hf h1 => rmwCommand_ends (.setMode mm) hw hf h1⟩

/-- Settles O13: one write of Control with the update of R153. -/
theorem enableCaptureArms : Obligations.EnableCaptureArms := by
  unfold Obligations.EnableCaptureArms
  simp only [← lifecycleEnable_eq]
  exact controlWriteCommand .enableCapture rfl

/-- Settles O14: one write of Control with the update of R154. -/
theorem disableCaptureEndsSession : Obligations.DisableCaptureEndsSession := by
  unfold Obligations.DisableCaptureEndsSession
  simp only [← lifecycleDisable_eq]
  exact controlWriteCommand .disableCapture rfl

/-- Settles O16: one read of Status with the update of R156. -/
theorem isFullReportsBitZero : Obligations.IsFullReportsBitZero :=
  singleReadCommand .isFull rfl

/-- Settles O17: one read of Status with the update of R158. -/
theorem isEmptyReportsBitFour : Obligations.IsEmptyReportsBitFour :=
  singleReadCommand .isEmpty rfl

/-- Settles O18: one read of Status with the update of R157. -/
theorem isReadyReportsBitTwo : Obligations.IsReadyReportsBitTwo := by
  unfold Obligations.IsReadyReportsBitTwo
  simp only [← lifecycleIsReady_eq]
  exact singleReadCommand .isReady rfl

/-- Settles O19: one read of Status with the update of R158, which does not look at the mode. -/
theorem isTriggeredReportsBitOne : Obligations.IsTriggeredReportsBitOne :=
  singleReadCommand .isTriggered rfl

/-- Settles O20: one read of Current fill level, and the law of R68. -/
theorem fillLevelCountsBytes : Obligations.FillLevelCountsBytes := by
  unfold Obligations.FillLevelCountsBytes
  simp only [ofNat_four_mul_eq_wordsToBytes]
  exact ⟨singleReadCommand .fillLevel rfl, fun _ => readValue_CFILL_of_disabled⟩

/-- Settles O21: one read of Size, and the law of R67. -/
theorem fifoSizeCountsBytes : Obligations.FifoSizeCountsBytes := by
  unfold Obligations.FifoSizeCountsBytes
  simp only [ofNat_four_mul_eq_wordsToBytes]
  exact ⟨singleReadCommand .fifoSize rfl, fun _ => readValue_SIZE⟩

/-- Settles O22: an RMW of FFCR (`rmwCommand_ends`) with the word of R85 and the update of R159. -/
theorem requestStopOnFlushSetsBitTwelve : Obligations.RequestStopOnFlushSetsBitTwelve := by
  refine ⟨fun arg data h => decode_requestStop_illegal h data, fun b => ?_⟩
  have hb := HasBody.requestStopOnFlush b
  refine ⟨decode_encodedCmd hb rfl rfl, refusedWhenLatched hb rfl,
    readFailureEnds hb rfl fun s hk => by simp [requestStopOnFlushBody_eq, hk], fun s hf h1 => ?_⟩
  rw [← lifecycleRequestStop_eq]
  exact rmwCommand_ends hb rfl hf h1

/-- Settles O23: the load, then the check of R160, then the store with the update of R161. -/
theorem triggerManualFlushChecksThenFlushes : Obligations.TriggerManualFlushChecksThenFlushes := by
  have hb := HasBody.triggerManualFlush
  refine ⟨decode_encodedCmd hb rfl rfl, refusedWhenLatched hb rfl,
    readFailureEnds hb rfl fun s hk => by simp [triggerBody_eq, hk], fun s hf h1 => ?_⟩
  intro v w took tracked
  have hcheck : s.C.phase.capturing = true ∧ s.C.sofReq = true ∧ v.getLsbD 12 = false ↔
      tracked ∧ s.C.sofReq = true ∧ v.getLsbD 12 = false := and_congr_left' (capturing_iff s.C.phase)
  rw [exec_eq_respond hb rfl hf, triggerBody_eq, if_pos h1]
  by_cases hc : tracked ∧ s.C.sofReq = true ∧ v.getLsbD 12 = false
  · rw [if_pos hc, if_pos (hcheck.2 hc)]; rfl
  · rw [if_neg hc, if_neg (mt hcheck.1 hc), ← lifecycleTrigger_eq]
    constructor <;> intro h2
    · rw [if_pos h2, respond_done, respond_afterReadWrite, if_pos rfl]; rfl
    · rw [if_neg h2, respond_raised, respond_latch_afterReadWrite]; rfl

end Sys2Proof.Claims
end

section
/-! PROOFS. Which commands change the phase (spec/42_lifecycle_fsm.md R151): a controller command whose body completes;
and what the bodies of the transitions have issued by then (R155, R160, R161). -/

namespace Sys2Proof.Machine

/-- A fault raised by a body leaves the phase (R225). -/
theorem BodyEnds.phase_of_raised {i : Instr} {s u : State} {e : CmdError} (h : BodyEnds i s (.raised e u)) :
    u.C.phase = s.C.phase := by
  cases h with
  | transport e | sofNotObserved _ e | dataAfterDrained _ _ e | drainLimit _ _ _ e => rw [e]

/-- A body ends with a value only where its command completes. -/
theorem HasBody.completes {i : Instr} {body : State → Result RspValue} {s u : State} {v : RspValue}
    (hb : HasBody i body) (hd : body s = .done v u) : Completes i s v u.C := by
  have he := hb.ends s
  rw [hd] at he
  cases he with
  | completes hc => exact hc

/-- A controller command that changes the phase is one whose body completed. -/
theorem HasBody.done_of_phase_ne {i : Instr} {body : State → Result RspValue} {s t : State} (hb : HasBody i body)
    (h : exec i s = .next t) (hp : t.C.phase ≠ s.C.phase) : ∃ v u, body s = .done v u ∧ t = u.respond (.ok v) := by
  rcases hb.exec_cases h with ⟨e, -, rfl⟩ | ⟨-, rfl⟩
  · exact absurd rfl hp
  · have he := hb.ends s
    cases hd : body s with
    | done v u => exact ⟨v, u, rfl, rfl⟩
    | raised e u => rw [hd] at he hp; exact absurd he.phase_of_raised hp

/-- A command that changes the phase is a controller command that completes. -/
theorem completes_of_phase_ne {i : Instr} {s t : State} (h : exec i s = .next t) (hp : t.C.phase ≠ s.C.phase) :
    ∃ v, Completes i s v t.C := by
  by_cases hu : i.execUnit = .controller
  · obtain ⟨body, hb, -⟩ := exec_eq_runController hu
    obtain ⟨v, u, hd, rfl⟩ := hb.done_of_phase_ne h hp
    exact ⟨v, (hb.completes hd : Completes i s v u.C)⟩
  · exact absurd (congrArg Controller.phase (exec_otherUnit_C hu h)) hp

/-- With a fault latched no command changes the phase (R224). -/
theorem noFault_of_phase_ne {i : Instr} {s t : State} (h : exec i s = .next t) (hp : t.C.phase ≠ s.C.phase) :
    s.C.fault = .noFault :=
  by_contra fun hf => hp (congrArg Controller.phase (exec_latched h hf).1)

/-- No word is read exactly where the sentinel is (R88). -/
theorem decodeRRD_eq_none {v : Word32} : decodeRRD v = none ↔ v = 0xFFFFFFFF := by
  unfold decodeRRD
  split <;> simpa

/-- A word is read exactly where it is not the sentinel (R88). -/
theorem decodeRRD_eq_some {v w : Word32} : decodeRRD v = some w ↔ v ≠ 0xFFFFFFFF ∧ v = w := by
  unfold decodeRRD
  split
  case isTrue h => exact iff_of_false nofun fun hw => hw.1 h
  case isFalse h => exact ⟨fun e => ⟨h, Option.some.inj e⟩, fun hw => congrArg some hw.2⟩

@[simp] theorem lifecycleSetMode_phase (mm : Bits2) (c : Controller) : (lifecycleSetMode mm c).phase = c.phase := by
  unfold lifecycleSetMode
  split <;> rfl

@[simp] theorem lifecycleRequestStop_phase (b : Bool) (c : Controller) : (lifecycleRequestStop b c).phase = c.phase := by
  rw [lifecycleRequestStop_eq]

/-- A trigger that completes in Armed or Full enters Stopping if the request was made (R161). -/
theorem lifecycleTrigger_phase_ne {c : Controller} (h : (lifecycleTrigger c).phase ≠ c.phase) :
    (c.phase = .armed ∨ c.phase = .full) ∧ c.sofReq = true ∧ (lifecycleTrigger c).phase = .stopping := by
  rw [lifecycleTrigger_eq] at h ⊢
  split_ifs at h ⊢ with hp hq
  · exact ⟨hp, hq, rfl⟩
  · exact absurd rfl h
  · exact absurd rfl h

/-- The sentinel concludes the drain from Stopping right after a ready observation, and raises nothing (R155). -/
theorem lifecycleReadOne_sentinel (s : State) :
    lifecycleReadOne none s = .done () (s.updateC fun c =>
      if s.C.phase = .stopping ∧ s.C.readyLast = true then { c with phase := .drained, readyLast := false }
      else { c with readyLast := false }) := by
  rw [lifecycleReadOne_eq]
  by_cases hp : s.C.phase = .stopping
  · cases hr : s.C.readyLast <;> simp [hp, State.updateC]
  · simp [hp, State.updateC, lifecycleQuery]

/-- A word is counted in Stopping, up to the limit, and is a violation in Drained (R155). -/
theorem lifecycleReadOne_word (w : Word32) (s : State) :
    lifecycleReadOne (some w) s =
      if s.C.phase = .stopping then
        if s.C.drainedWords + 1 > s.params.drainLimit then
          .raised (.protocolViolation .drainLimit) (s.updateC fun c =>
            { c with readyLast := false, drainedWords := s.C.drainedWords + 1, fault := .protocol .drainLimit })
        else .done () (s.updateC fun c => { c with readyLast := false, drainedWords := s.C.drainedWords + 1 })
      else if s.C.phase = .drained then
        .raised (.protocolViolation .dataAfterDrained) (s.updateC fun c =>
          { c with readyLast := false, fault := .protocol .dataAfterDrained })
      else .done () (s.updateC lifecycleQuery) := by
  simp [lifecycleReadOne_eq]

/-- READ_ONE completes only where its read did (R134). -/
theorem readOneBody_done_bus {s u : State} {v : RspValue} (h : readOneBody s = .done v u) :
    u.bus = s.bus ++ [.read .RRD (s.addrOf .RRD) s.C.phase (some (s.readValue .RRD))] := by
  have hb := readOneBody_bus s
  rw [h] at hb
  rw [readOneBody_eq] at h
  split_ifs at h with hk
  rwa [if_pos hk] at hb

/-- TRIGGER_MANUAL_FLUSH completes only where its read and its write of FFCR did (R142). -/
theorem triggerBody_done_bus {s u : State} {v : RspValue} (h : triggerManualFlushBody s = .done v u) :
    u.bus = s.bus ++ [.read .FFCR (s.addrOf .FFCR) s.C.phase (some (s.readValue .FFCR)),
      .write .FFCR (s.addrOf .FFCR) (encodeFFCRflush (s.readValue .FFCR)) true true] := by
  rw [triggerBody_eq] at h
  split_ifs at h
  cases h
  exact List.append_assoc _ _ _

/-- A drained word is the one READ_ONE answered in Stopping (R168). -/
theorem drainedWord_eq_some {i : Instr} {s t : State} {w : Word32} :
    drainedWord i s t = some w ↔
      i = .readOne ∧ s.C.phase = .stopping ∧ t.port.rsp = some (.ok (.optWord (some w))) := by
  unfold drainedWord
  split_ifs with hi
  · split <;> simp_all
  · simpa using fun h1 h2 _ => hi ⟨h1, h2⟩

/-- READ_ONE answers a word in Stopping by counting it, within the limit (R155, R166). -/
theorem Completes.drainedWord {s : State} {w : Word32} {c : Controller}
    (h : Completes .readOne s (.optWord (some w)) c) (hp : s.C.phase = .stopping) :
    decodeRRD (s.readValue .RRD) = some w ∧ s.C.drainedWords + 1 ≤ s.params.drainLimit ∧
      c = { s.C with readyLast := false, drainedWords := s.C.drainedWords + 1 } := by
  generalize hv : RspValue.optWord (some w) = v at h
  cases h with
  | readEmpty => cases hv
  | readWord _ w' _ hw hl => cases hv; exact ⟨hw, hl, rfl⟩
  | readOutside _ hn => exact absurd hp hn

/-- IS_READY completes only where its read of Status did, and answers its bit 2 (R137). -/
theorem isReadyBody_done {s u : State} {b : Bool} (h : isReadyBody s = .done (.bool b) u) :
    u.bus = s.bus ++ [.read .STS (s.addrOf .STS) s.C.phase (some (s.readValue .STS))] ∧
      (decodeStatus (s.readValue .STS)).ready = b ∧ u.C.phase = s.C.phase := by
  rw [isReadyBody_eq] at h
  split_ifs at h
  cases h
  exact ⟨rfl, rfl, rfl⟩

end Sys2Proof.Machine
end

section
/-! PROOFS. The watch over the bus history (spec/20_memory.md R74): what a ready observation, the sentinel after it and a
command's other transactions make of it, and the ready observation witnessed by it (spec/42_lifecycle_fsm.md R164). -/

namespace Sys2Proof.Machine

theorem drainWatch_append (bus es : List BusEvent) :
    drainWatch (bus ++ es) = es.foldl DrainWatch.next (drainWatch bus) :=
  List.foldl_append

/-- The premise of the drain contract is under way or met: what a ready observation that counts needs (R164). -/
abbrev DrainWatch.seesReady (w : DrainWatch) : Prop := w = .readySeen ∨ w = .exhausted

/-- After a Status read in Stopping that showed ready, the premise is under way, or met as before. -/
theorem DrainWatch.next_ready (w : DrainWatch) (addr : Nat) {v : Word32} (h : (decodeStatus v).ready = true) :
    (w.next (.read .STS addr .stopping (some v))).seesReady := by
  cases w with
  | exhausted => exact .inr rfl
  | readySeen | idle => exact .inl (if_pos h)

/-- The sentinel read at once after a ready observation meets the premise. -/
theorem DrainWatch.next_sentinel {w : DrainWatch} (h : w.seesReady) (addr : Nat) (p : Phase) :
    w.next (.read .RRD addr p (some 0xFFFFFFFF)) = .exhausted := by
  rcases h with rfl | rfl <;> rfl

/-- A part of a body that ends in the result `r` keeps the premise met. -/
def KeepsExhausted {α : Type} (s : State) (r : Result α) : Prop :=
  drainWatch s.bus = .exhausted → drainWatch r.state.bus = .exhausted

theorem KeepsExhausted.andThen {α β : Type} {s : State} {r : Result α} {f : α → State → Result β}
    (hr : KeepsExhausted s r) (hf : ∀ v t, KeepsExhausted t (f v t)) : KeepsExhausted s (r.andThen f) := by
  cases r with
  | done v t => exact fun h => hf v t (hr h)
  | raised e t => exact hr

/-- What leaves the bus history keeps the premise met. -/
theorem keepsExhausted_of_bus {α : Type} {s : State} {r : Result α} (h : r.state.bus = s.bus) : KeepsExhausted s r :=
  fun hw => h ▸ hw

/-- What appends a transaction other than a write of 1 to Control keeps the premise met. -/
theorem keepsExhausted_of_event {α : Type} {s : State} {r : Result α} {e : BusEvent} (h : r.state.bus = s.bus ++ [e])
    (he : e.enablesCapture = false) : KeepsExhausted s r := by
  intro hw
  rw [h, drainWatch_append, hw]
  exact if_neg (Bool.eq_false_iff.1 he)

theorem load_keepsExhausted (reg : RegName) (s : State) : KeepsExhausted s (load reg s) := by
  rcases load_cases reg s with ⟨-, e⟩ | ⟨-, e⟩ <;> rw [e] <;> exact keepsExhausted_of_event rfl rfl

theorem store_keepsExhausted {reg : RegName} {v : Word32}
    (h : ∀ addr ok took, (BusEvent.write reg addr v ok took).enablesCapture = false) (s : State) :
    KeepsExhausted s (store reg v s) := by
  rcases store_cases reg v s with ⟨-, e⟩ | ⟨-, e⟩ <;> rw [e] <;> exact keepsExhausted_of_event rfl (h _ _ _)

/-- The body of every controller command but ENABLE_CAPTURE keeps the premise met. -/
theorem HasBody.keepsExhausted {i : Instr} {body : State → Result RspValue} (h : HasBody i body)
    (hi : i ≠ .enableCapture) (s : State) : KeepsExhausted s (body s) := by
  cases h with
  | enableCapture => exact absurd rfl hi
  | disableCapture => exact (store_keepsExhausted (fun _ _ _ => rfl) s).andThen fun _ _ => keepsExhausted_of_bus rfl
  | setMode | requestStopOnFlush =>
    exact ((load_keepsExhausted _ s).andThen fun _ t => store_keepsExhausted (fun _ _ _ => rfl) t).andThen
      fun _ _ => keepsExhausted_of_bus rfl
  | readOne => exact keepsExhausted_of_event (readOneBody_bus s) rfl
  | isFull | isEmpty | isReady | isTriggered | fillLevel | fifoSize =>
    exact (load_keepsExhausted _ s).andThen fun _ _ => keepsExhausted_of_bus rfl
  | triggerManualFlush =>
    refine (load_keepsExhausted _ s).andThen fun v t => KeepsExhausted.andThen ?_ fun _ u =>
      (store_keepsExhausted (fun _ _ _ => rfl) u).andThen fun _ _ => keepsExhausted_of_bus rfl
    rw [lifecycleTriggerCheck_eq]
    exact keepsExhausted_of_bus (by split <;> rfl)

/-- Every command but ENABLE_CAPTURE keeps the premise met (R74). -/
theorem exec_drainWatch_exhausted {i : Instr} {s t : State} (hi : i ≠ .enableCapture) (h : exec i s = .next t)
    (hw : drainWatch s.bus = .exhausted) : drainWatch t.bus = .exhausted := by
  by_cases hu : i.execUnit = .controller
  · obtain ⟨body, hb, -⟩ := exec_eq_runController hu
    rcases hb.exec_cases h with ⟨e, -, rfl⟩ | ⟨-, rfl⟩
    · exact hw
    · rw [Result.respond_bus]; exact hb.keepsExhausted hi s hw
  · obtain ⟨x, r, rfl, -⟩ := exec_otherUnit hu h
    exact hw

/-- Only `C` and the bus history matter to the witness of a ready observation. -/
theorem readyWitnessed_congr {s t : State} (hC : t.C = s.C) (hb : t.bus = s.bus) (h : readyWitnessed s) :
    readyWitnessed t := by
  simpa only [readyWitnessed, hC, hb] using h

/-- Every legal command keeps the ready observation witnessed: only IS_READY makes one (R25), by a Status read that
showed ready, and every other controller command that latches no fault ends it. -/
theorem exec_readyWitnessed {i : Instr} {s t : State} (hw : i.wellFormed = true) (hs : readyWitnessed s)
    (h : exec i s = .next t) : readyWitnessed t := by
  by_cases hu : i.execUnit = .controller
  · intro hf hr
    obtain ⟨rfl, hp, hrsp⟩ := ((Claims.readyLastMeansReadyJustSeen i s t hw h hf).1 hu).1 hr
    obtain ⟨u, hd, rfl⟩ := HasBody.isReady.exec_ok h hrsp
    obtain ⟨hb, hready, hpu⟩ := isReadyBody_done hd
    rw [respond_C, respond_bus, hb, drainWatch_append, hp]
    exact ⟨hpu.trans hp, DrainWatch.next_ready _ _ hready⟩
  · obtain ⟨x, r, rfl, -⟩ := exec_otherUnit hu h
    exact readyWitnessed_congr rfl rfl hs

end Sys2Proof.Machine
end

section
/-! PROOFS. The obligations of spec/42_lifecycle_fsm.md. -/

namespace Sys2Proof.Claims

open Sys2Proof.Machine

/-- Settles O38, by the four moves of a step; a command keeps the witness by `exec_readyWitnessed`. -/
theorem stepKeepsReadyWitness : Obligations.StepKeepsReadyWitness := by
  intro s t hs h
  rcases step_cases h with ⟨-, rfl⟩ | ⟨-, c, i, -, hd, he⟩ | ⟨-, c, e, -, -, rfl⟩ | ⟨-, -, hh⟩
  · exact fun _ hr => nomatch hr
  · exact exec_readyWitnessed (s := s.acceptCommand) (decode_eq_legal_iff.1 hd).1 hs he
  · exact readyWitnessed_congr rfl rfl hs
  · obtain ⟨p, r, host, rfl, -⟩ := hostStep_hostMoved hh
    exact readyWitnessed_congr rfl rfl hs

/-- Settles O15: the load, then the update of R155 with a case for the word read, the phase and the limit. -/
theorem readOneDrains : Obligations.ReadOneDrains := by
  have hb := HasBody.readOne
  refine ⟨decode_encodedCmd hb rfl rfl, refusedWhenLatched hb rfl,
    readFailureEnds hb rfl fun s hk => by simp [readOneBody_eq, hk], fun s hf h1 => ?_⟩
  intro v es c
  rw [exec_eq_respond hb rfl hf, readOneBody_eq, if_pos h1]
  by_cases hv : v = 0xFFFFFFFF
  · rw [if_pos hv, decodeRRD_eq_none.2 hv, lifecycleReadOne_sentinel]; rfl
  · rw [if_neg hv, decodeRRD_eq_some.2 ⟨hv, rfl⟩, lifecycleReadOne_word]
    split_ifs <;> rfl

/-- Settles O34: only a command that completes changes the phase, and each of them by its own row of the table. -/
theorem phaseChangesAreTheTable : Obligations.PhaseChangesAreTheTable := by
  intro i s t h hp
  obtain ⟨v, hc⟩ := completes_of_phase_ne h hp
  generalize t.C = c at hp hc
  cases hc with
  | enableCapture =>
    by_cases hd : s.C.phase = .disabled
    · exact .inl ⟨rfl, hd, by simp [lifecycleEnable, hd]⟩
    · exact absurd (by simp [lifecycleEnable, hd]) hp
  | disableCapture => exact .inr (.inr (.inr (.inr ⟨rfl, lifecycleDisable_phase _⟩)))
  | readEmpty _ hs hv =>
    by_cases hr : s.C.readyLast = true
    · exact .inr (.inr (.inr (.inl ⟨rfl, hs, if_pos hr, hr, decodeRRD_eq_none.1 hv⟩)))
    · exact absurd ((if_neg hr).trans hs.symm) hp
  | isFull =>
    by_cases ha : s.C.phase = .armed ∧ (decodeStatus (s.readValue .STS)).full = true
    · exact .inr (.inl ⟨rfl, ha.1, if_pos ha, ha.2⟩)
    · exact absurd (if_neg ha) hp
  | triggerManualFlush _ hn =>
    obtain ⟨ha, hq, ht⟩ := lifecycleTrigger_phase_ne hp
    exact .inr (.inr (.inl ⟨rfl, ha, ht, hq, by simpa [capturing_iff, ha, hq] using hn⟩))
  | setMode mm => exact absurd (lifecycleSetMode_phase mm s.C) hp
  | requestStopOnFlush b => exact absurd (lifecycleRequestStop_phase b s.C) hp
  | readWord | readOutside | isEmpty | isReady | isTriggered | fillLevel | fifoSize => exact absurd rfl hp

/-- Settles O35: the one row that enters Stopping is TRIGGER_MANUAL_FLUSH's, whose body completed. -/
theorem stoppingNeedsStopSequence : Obligations.StoppingNeedsStopSequence := by
  intro i s t h hs ht
  have hp : t.C.phase ≠ s.C.phase := fun e => hs (e.symm.trans ht)
  obtain ⟨rfl, ha, hq, hv⟩ := by simpa [ht] using phaseChangesAreTheTable i s t h hp
  obtain ⟨v, u, hd, rfl⟩ := HasBody.triggerManualFlush.done_of_phase_ne h hp
  exact ⟨rfl, ha, hq, _, _, hv, rfl, (triggerBody_done_bus hd : u.bus = _)⟩

/-- Settles O39: READ_ONE concludes the drain by the sentinel, read next after the ready observation; afterwards only
ENABLE_CAPTURE writes 1 to Control. -/
theorem drainConclusionMeetsContractPremise : Obligations.DrainConclusionMeetsContractPremise := by
  refine ⟨fun i s t hw h hs ht => ?_, fun i s t hw h hi => exec_drainWatch_exhausted hi h hw⟩
  have hp : t.C.phase ≠ s.C.phase := fun e => hs (e.symm.trans ht)
  obtain ⟨rfl, -, hr, hv⟩ := by simpa [ht] using phaseChangesAreTheTable i s t h hp
  obtain ⟨v, u, hd, rfl⟩ := HasBody.readOne.done_of_phase_ne h hp
  obtain ⟨-, hseen⟩ := hw (noFault_of_phase_ne h hp) hr
  rw [respond_bus, readOneBody_done_bus hd, hv, drainWatch_append]
  exact DrainWatch.next_sentinel hseen _ _

/-- Settles O43: the word on record decides bit 12 of every lawful read, so the check of R160 passes. -/
theorem lawfulDeviceObservesRequest : Obligations.LawfulDeviceObservesRequest := by
  intro s t hl hreq h
  rcases HasBody.triggerManualFlush.exec_cases h with ⟨e, he, rfl⟩ | ⟨hf, rfl⟩
  · rcases he with rfl | rfl <;> nofun
  rw [triggerBody_eq]
  split_ifs with h1 hn
  case pos =>
    obtain ⟨hp, hq, hbit⟩ := hn
    obtain ⟨v, hv, hset⟩ := hreq hl hf hp hq
    rw [readValue_FFCR hl, hv, lawFFCR_bit12, hset] at hbit
    cases hbit
  all_goals nofun

/-- Settles O45: the write of Control completes and the update of R154 keeps the lifecycle from Drained; only a command
that completes, which needs no fault latched, changes the phase, and none sets `lifecycle_ok`. -/
theorem sessionEndsWellFromDrained : Obligations.SessionEndsWellFromDrained := by
  refine ⟨fun s hp hf hl hk => ⟨_, exec_disableCapture_done hf hk, rfl, hp, lifecycleDisable_phase s.C,
    (lifecycleDisable_update s.C).fault.trans hf, ?_⟩, fun i s t h he => ?_⟩
  · show (lifecycleDisable s.C).lifecycleOk = true
    simp [lifecycleDisable_eq, hp, hl]
  · obtain ⟨-, hs, ht, -, hl⟩ := he
    exact ⟨exec_lifecycleOk h hl, noFault_of_phase_ne h (by rw [hs, ht]; nofun)⟩

/-- Settles O46: READ_ONE answers a word in Stopping by the one completion that counts it, within the limit. -/
theorem drainedStreamIsBounded : Obligations.DrainedStreamIsBounded := by
  intro i s t w h hd
  obtain ⟨rfl, hp, hrsp⟩ := drainedWord_eq_some.1 hd
  obtain ⟨u, hu, rfl⟩ := HasBody.readOne.exec_ok h hrsp
  obtain ⟨hv, hl, hc⟩ := (HasBody.readOne.completes hu).drainedWord hp
  obtain ⟨hne, hw⟩ := decodeRRD_eq_some.1 hv
  rw [respond_C, hc, exec_params h]
  exact ⟨hw.symm, hw ▸ hne, rfl, hl⟩

end Sys2Proof.Claims
end

section
/-! PROOFS. The bytes of a frame (spec/43_frame_demux.md R184, R186, R188): a byte as its upper seven bits and its bit 0,
a word as its four bytes, and the frame read back from the words its bytes were written to. -/

namespace Sys2Proof.Machine

@[simp] theorem getElem_zero_append_bit (x : BitVec 7) (y : BitVec 1) : (x ++ y)[0] = y[0] := by
  rw [BitVec.getElem_append]; rfl

@[simp] theorem idTag_append_bit (t : Tag) (y : BitVec 1) : idTag (t ++ y) = t := BitVec.extractLsb'_append_eq_left

@[simp] theorem evenData_append_bit (x : BitVec 7) (y : BitVec 1) (f : Bool) :
    evenData (x ++ y) f = x ++ BitVec.ofBool f := by
  rw [evenData, BitVec.extractLsb'_append_eq_left]

/-- A byte is its upper seven bits above its bit 0. -/
theorem upper_append_bit_zero {b : Byte} {f : Bool} (h : b.getLsbD 0 = f) :
    b.extractLsb' 1 7 ++ BitVec.ofBool f = b := by
  rw [← h, ← extractLsb'_one]
  exact (BitVec.extractLsb'_append_extractLsb'_eq_extractLsb' rfl).trans BitVec.extractLsb'_eq_self

/-- The bytes of a word written from bytes (R184). -/
theorem wordBytes_wordOfBytes (b0 b1 b2 b3 : Byte) :
    [wordByte (wordOfBytes b0 b1 b2 b3) 0, wordByte (wordOfBytes b0 b1 b2 b3) 1, wordByte (wordOfBytes b0 b1 b2 b3) 2,
      wordByte (wordOfBytes b0 b1 b2 b3) 3] = [b0, b1, b2, b3] := by
  simp only [wordByte, wordOfBytes, BitVec.extractLsb'_append_eq_ite]
  simp

/-- A word is written from its own bytes (R184). -/
theorem wordOfBytes_wordByte (w : Word32) :
    wordOfBytes (wordByte w 0) (wordByte w 1) (wordByte w 2) (wordByte w 3) = w := by
  have join {k n : Nat} : w.extractLsb' (k + 8) n ++ w.extractLsb' k 8 = w.extractLsb' k (n + 8) :=
    BitVec.extractLsb'_append_extractLsb'_eq_extractLsb' rfl
  calc wordOfBytes (wordByte w 0) (wordByte w 1) (wordByte w 2) (wordByte w 3)
    _ = w.extractLsb' 16 16 ++ wordByte w 1 ++ wordByte w 0 := congrArg (· ++ wordByte w 1 ++ wordByte w 0) join
    _ = w.extractLsb' 8 24 ++ wordByte w 0 := congrArg (· ++ wordByte w 0) join
    _ = w.extractLsb' 0 32 := join
    _ = w := BitVec.extractLsb'_eq_self

theorem frameBytes_length (ws : List Word32) : (frameBytes ws).length = 4 * ws.length := by
  simp [frameBytes, List.length_flatMap, Nat.mul_comm]

/-- The bytes of words written from bytes (R184). -/
theorem frameBytes_wordsOfBytes (bs : List Byte) (h : 4 ∣ bs.length) : frameBytes (wordsOfBytes bs) = bs := by
  induction bs using wordsOfBytes.induct with
  | case1 b0 b1 b2 b3 bs ih =>
    have ih := ih (by simpa [Nat.dvd_add_left] using h)
    rw [frameBytes] at ih ⊢
    rw [wordsOfBytes, List.flatMap_cons, wordBytes_wordOfBytes, ih]
    rfl
  | case2 bs hbs =>
    match bs, h, hbs with
    | [], _, _ => rfl
    | [_], h, _ => simp at h
    | [_, _], h, _ => simp at h
    | [_, _, _], h, _ => simp at h
    | _ :: _ :: _ :: _ :: _, _, hbs => exact absurd rfl (hbs _ _ _ _ _)

/-- Words are written from their own bytes (R184). -/
theorem wordsOfBytes_frameBytes (ws : List Word32) : wordsOfBytes (frameBytes ws) = ws := by
  induction ws with
  | nil => rfl
  | cons w ws ih => exact congrArg₂ List.cons (wordOfBytes_wordByte w) ih

end Sys2Proof.Machine
end

section
/-! PROOFS. The parse of a described frame (spec/43_frame_demux.md R185 to R191): each item parses to its meaning, and the
parse goes over the items in their order. -/

namespace Sys2Proof.Machine

/-- The parse of a written even item and its odd byte is the item's meaning (R187, R188). -/
theorem parsePair_item (p : EvenItem × Byte) (s : ParseState) :
    parsePair p.1.byte p.2 p.1.aux s =
      { out := s.out ++ (pairMeaning p s.tag).1, tag := (pairMeaning p s.tag).2 } := by
  obtain ⟨i, o⟩ := p
  cases i with
  | data b => simp [parsePair, EvenItem.byte, EvenItem.aux, pairMeaning, upper_append_bit_zero]
  | newTag t delayed => cases delayed <;> simp [parsePair, EvenItem.byte, EvenItem.aux, pairMeaning]

/-- The parse of the written pairs of a frame is what they stand for, one after another (R185, R191). -/
theorem foldl_parsePair_items (ps : List (EvenItem × Byte)) (s : ParseState) :
    ps.foldl (fun s p => parsePair p.1.byte p.2 p.1.aux s) s =
      { out := s.out ++ (pairsMeaning ps s.tag).1, tag := (pairsMeaning ps s.tag).2 } := by
  induction ps generalizing s with
  | nil => simp [pairsMeaning]
  | cons p ps ih => rw [List.foldl_cons, ih, parsePair_item, pairsMeaning, List.append_assoc]

/-- The parse of the written byte 14 ends the frame as its item says (R190). -/
theorem parseLast_item (d : FrameDesc) (t : Tag) :
    parseLast d.last.byte d.last.aux { out := (pairsMeaning d.pairs t).1, tag := (pairsMeaning d.pairs t).2 } =
      { out := (d.meaning t).1, tag := (d.meaning t).2 } := by
  obtain ⟨ps, l⟩ := d
  cases l <;> simp [parseLast, LastItem.byte, LastItem.aux, FrameDesc.meaning, upper_append_bit_zero]

/-- The sixteen bytes of a described frame, before they are put into words (R184). -/
def FrameDesc.bytes (d : FrameDesc) : List Byte :=
  d.pairs.flatMap (fun p => [p.1.byte, p.2]) ++ [d.last.byte, d.auxByte]

theorem FrameDesc.words_eq (d : FrameDesc) : d.words = wordsOfBytes d.bytes := rfl

theorem FrameDesc.bytes_length (d : FrameDesc) (h : d.pairs.length = 7) : d.bytes.length = 16 := by
  simp [FrameDesc.bytes, List.length_flatMap, h]

/-- The bytes of a described frame are read back from its words (R184). -/
theorem FrameDesc.frameBytes_words {d : FrameDesc} (h : d.pairs.length = 7) : frameBytes d.words = d.bytes :=
  frameBytes_wordsOfBytes d.bytes ⟨4, d.bytes_length h⟩

/-- A described frame is written in four words (R184). -/
theorem FrameDesc.words_length {d : FrameDesc} (h : d.pairs.length = 7) : d.words.length = 4 := by
  have hl := d.bytes_length h
  rw [← frameBytes_words h, frameBytes_length] at hl
  omega

/-- The aux bits are read back from the aux byte (R189). -/
theorem FrameDesc.auxByte_getElem (d : FrameDesc) {k : Nat} (hk : k < 8) :
    d.auxByte[k] = (d.pairs.map (fun p => p.1.aux) ++ [d.last.aux]).getD k false := by
  rw [← BitVec.getLsbD_eq_getElem, FrameDesc.auxByte, BitVec.getLsbD_setWidth, BitVec.getLsbD_ofBoolListLE,
    decide_eq_true hk, Bool.true_and]

/-- The parse of a written frame goes over the described pairs and then the last item (R185). -/
theorem parseFrame_words (d : FrameDesc) (t : Tag) (h : d.pairs.length = 7) :
    parseFrame t d.words = parseLast d.last.byte d.last.aux
      (d.pairs.foldl (fun s p => parsePair p.1.byte p.2 p.1.aux s) { out := [], tag := t }) := by
  have hb := FrameDesc.frameBytes_words h
  have haux {k : Nat} (hk : k < 8) := d.auxByte_getElem hk
  obtain ⟨ps, l⟩ := d
  match ps, h with
  | [p0, p1, p2, p3, p4, p5, p6], _ => simp [parseFrame, hb, FrameDesc.bytes, haux]

end Sys2Proof.Machine
end

section
/-! PROOFS. Every frame as a described one (spec/43_frame_demux.md R184 to R190): what each even byte spells with its aux
bit. -/

namespace Sys2Proof.Machine

/-- The even item an even byte and its aux bit spell (R186). -/
def EvenItem.ofByte (b : Byte) (f : Bool) : EvenItem :=
  if b.getLsbD 0 then .newTag (idTag b) f else .data (evenData b f)

/-- Byte 14 is spelt as an even byte is (R190). -/
def EvenItem.toLast : EvenItem → LastItem
  | .data b => .data b
  | .newTag t f => .newTag t f

/-- The description of a frame, read off its words. -/
def FrameDesc.ofWords (ws : List Word32) : FrameDesc :=
  let b := fun i => (frameBytes ws).getD i 0
  { pairs := [0, 2, 4, 6, 8, 10, 12].map fun i => (.ofByte (b i) ((b 15).getLsbD (i / 2)), b (i + 1))
    last := (EvenItem.ofByte (b 14) ((b 15).getLsbD 7)).toLast }

@[simp] theorem EvenItem.ofByte_byte (b : Byte) (f : Bool) : (EvenItem.ofByte b f).byte = b := by
  unfold EvenItem.ofByte
  split_ifs with h
  · exact upper_append_bit_zero h
  · rw [EvenItem.byte, evenData, BitVec.extractLsb'_append_eq_left]
    exact upper_append_bit_zero (Bool.eq_false_iff.2 h)

@[simp] theorem EvenItem.ofByte_aux (b : Byte) (f : Bool) : (EvenItem.ofByte b f).aux = f := by
  unfold EvenItem.ofByte
  split_ifs
  · rfl
  · simp [EvenItem.aux, evenData]

@[simp] theorem EvenItem.toLast_byte (i : EvenItem) : i.toLast.byte = i.byte := by cases i <;> rfl

@[simp] theorem EvenItem.toLast_aux (i : EvenItem) : i.toLast.aux = i.aux := by cases i <;> rfl

/-- The aux bits read off a frame are put back into its byte 15 (R189). -/
theorem FrameDesc.ofWords_auxByte (ws : List Word32) : (FrameDesc.ofWords ws).auxByte = (frameBytes ws).getD 15 0 := by
  ext k hk
  rw [FrameDesc.auxByte_getElem _ hk]
  interval_cases k <;> simp [FrameDesc.ofWords]

/-- The description read off four words is written as those words. -/
theorem FrameDesc.ofWords_words (w₀ w₁ w₂ w₃ : Word32) :
    (FrameDesc.ofWords [w₀, w₁, w₂, w₃]).words = [w₀, w₁, w₂, w₃] := by
  have hb : (FrameDesc.ofWords [w₀, w₁, w₂, w₃]).bytes = frameBytes [w₀, w₁, w₂, w₃] := by
    rw [FrameDesc.bytes, FrameDesc.ofWords_auxByte]
    simp [FrameDesc.ofWords, frameBytes]
  rw [FrameDesc.words_eq, hb, wordsOfBytes_frameBytes]

end Sys2Proof.Machine
end

section
/-! PROOFS. How many pairs a frame outputs (spec/43_frame_demux.md R196). -/

namespace Sys2Proof.Machine

/-- An even byte and its partner output one pair, and one more where the even byte is data (R187, R188). -/
theorem parsePair_length_count (e o : Byte) (f : Bool) (p : ParseState) :
    (parsePair e o f p).out.length = p.out.length + 1 + [e.getLsbD 0].count false := by
  rw [parsePair_length]
  cases e.getLsbD 0 <;> rfl

/-- Byte 14 outputs a pair where it is data (R190). -/
theorem parseLast_length_count (b : Byte) (f : Bool) (p : ParseState) :
    (parseLast b f p).out.length = p.out.length + [b.getLsbD 0].count false := by
  unfold parseLast
  cases b.getLsbD 0 <;> simp

/-- Bit 0 of byte j of a word. -/
theorem wordByte_bit_zero (w : Word32) (j : Nat) : (wordByte w j).getLsbD 0 = w.getLsbD (8 * j) := by
  simp [wordByte]

/-- A frame outputs a pair for each of its seven odd bytes, and one for each even byte that is data. -/
theorem parseFrame_length (t : Tag) (w₀ w₁ w₂ w₃ : Word32) :
    (parseFrame t [w₀, w₁, w₂, w₃]).out.length =
      7 + ([w₀, w₁, w₂, w₃].flatMap fun w => [w.getLsbD 0, w.getLsbD 16]).count false := by
  simp only [parseFrame, frameBytes, List.flatMap_cons, List.flatMap_nil, List.cons_append, List.nil_append,
    List.foldl_cons, List.foldl_nil, List.getD_cons_zero, List.getD_cons_succ, parseLast_length_count,
    parsePair_length_count, wordByte_bit_zero, List.count_cons, List.count_nil, List.length_nil, Nat.reduceMul]
  omega

end Sys2Proof.Machine
end

section
/-! PROOFS. The demultiplexer's commands on the whole state (spec/43_frame_demux.md R181 to R183), the words of a stream
fed one by one (R191, R192), and their arguments (spec/30_encoding.md R92). -/

namespace Sys2Proof.Machine

/-- The state after one DEMUX_FEED (R182). -/
def afterFeed (w : Word32) (s : State) : State :=
  State.respond (.ok (.pairs (feedWord w s.X).2)) { s with X := (feedWord w s.X).1 }

theorem exec_demuxFeed (w : Word32) (s : State) : exec (.demuxFeed w) s = .next (afterFeed w s) := rfl

theorem feedAll_nil (s : State) : feedAll [] s = (s, []) := rfl

theorem feedAll_cons (w : Word32) (ws : List Word32) (s : State) :
    feedAll (w :: ws) s =
      ((feedAll ws (afterFeed w s)).1, (feedWord w s.X).2 ++ (feedAll ws (afterFeed w s)).2) := rfl

/-- Words fed after others go on from the state those left. -/
theorem feedAll_append (us vs : List Word32) (s : State) :
    feedAll (us ++ vs) s =
      ((feedAll vs (feedAll us s).1).1, (feedAll us s).2 ++ (feedAll vs (feedAll us s).1).2) := by
  induction us generalizing s with
  | nil => rfl
  | cons w us ih => rw [List.cons_append, feedAll_cons, ih, feedAll_cons, List.append_assoc]

/-- Four words fed from a frame boundary are parsed as one frame and leave a frame boundary (R182, R195). -/
theorem feedAll_frame {ws : List Word32} {s : State} (hw : ws.length = 4) (hs : s.X.fwords = []) :
    (feedAll ws s).2 = (parseFrame s.X.tag ws).out ∧
      (feedAll ws s).1.X = { tag := (parseFrame s.X.tag ws).tag, fwords := [] } := by
  match ws, hw with
  | [w₀, w₁, w₂, w₃], _ =>
    simp [feedAll_cons, feedAll_nil, afterFeed, feedWord_holds, feedWord_parses, hs]

/-- With DEMUX_INIT's opcode the argument decides (R91); likewise for DEMUX_FEED and DEMUX_STATUS. -/
theorem decode_demuxInit (arg : BitVec 8) (data : Word32) : decode ⟨0x20#8 ++ arg, data⟩ = decodeDemuxInit arg := by
  simp [decode, CmdWord.op_append, CmdWord.arg_append]

theorem decode_demuxFeed (arg : BitVec 8) (w : Word32) :
    decode ⟨0x21#8 ++ arg, w⟩ = decodePlain arg (.demuxFeed w) := by
  simp [decode, CmdWord.op_append, CmdWord.arg_append]

theorem decode_demuxStatus (arg : BitVec 8) (data : Word32) :
    decode ⟨0x22#8 ++ arg, data⟩ = decodePlain arg .demuxStatus := by
  simp [decode, CmdWord.op_append, CmdWord.arg_append]

/-- The word of DEMUX_INIT with bit 7 set has it above the tag. -/
theorem demuxInit_bit7_word (t : Tag) : (0x2080 ||| t.setWidth 16 : CmdWord) = 0x20#8 ++ (1#1 ++ t) := by
  revert t; decide

theorem decodeDemuxInit_illegal (t : Tag) : decodeDemuxInit (1#1 ++ t) = .illegal .reservedBits :=
  if_neg (by rw [BitVec.getLsbD_append, if_neg (lt_irrefl 7)]; decide)

theorem decodePlain_illegal {arg : BitVec 8} (h : arg ≠ 0) (i : Instr) : decodePlain arg i = .illegal .reservedBits :=
  if_neg h

end Sys2Proof.Machine
end

section
/-! PROOFS. Noninterference (R180): the controller's bodies read no demultiplexer record and pass it on. -/

namespace Sys2Proof.Machine

/-- The state with another demultiplexer record. -/
def State.withX (x : Demux) (s : State) : State := { s with X := x }

/-- The end of a body with another demultiplexer record. -/
def Result.withX {α : Type} (x : Demux) : Result α → Result α
  | .done v s => .done v (s.withX x)
  | .raised e s => .raised e (s.withX x)

/-- A part of a body runs alike whatever the demultiplexer record is, and passes that record on. -/
def IgnoresX {α : Type} (f : State → Result α) : Prop :=
  ∀ (x : Demux) (s : State), f (s.withX x) = (f s).withX x

theorem IgnoresX.andThen {α β : Type} {f : State → Result α} {g : α → State → Result β} (hf : IgnoresX f)
    (hg : ∀ v, IgnoresX (g v)) : IgnoresX fun s => (f s).andThen g := by
  intro x s
  show (f (s.withX x)).andThen g = ((f s).andThen g).withX x
  rw [hf x s]
  cases f s with
  | done v t => exact hg v x t
  | raised e t => rfl

theorem load_ignoresX (reg : RegName) : IgnoresX (load reg) := by
  intro x s
  rcases load_cases reg s with ⟨hk, e⟩ | ⟨hk, e⟩
  · rw [e]; exact load_done reg (s.withX x) hk
  · rw [e]; exact load_raised reg (s.withX x) hk

theorem store_ignoresX (reg : RegName) (v : Word32) : IgnoresX (store reg v) := by
  intro x s
  rcases store_cases reg v s with ⟨hk, e⟩ | ⟨hk, e⟩
  · rw [e]; exact store_done reg v (s.withX x) hk
  · rw [e]; exact store_raised reg v (s.withX x) hk

theorem rmw_ignoresX (reg : RegName) (f : Word32 → Word32) : IgnoresX (rmw reg f) :=
  (load_ignoresX reg).andThen fun v => store_ignoresX reg (f v)

theorem done_updateC_ignoresX {α : Type} (v : α) (g : Controller → Controller) :
    IgnoresX fun s => .done v (s.updateC g) := fun _ _ => rfl

theorem lifecycleReadOne_ignoresX (r : Option Word32) : IgnoresX (lifecycleReadOne r) := by
  intro x s
  simp only [lifecycleReadOne_eq, apply_ite (Result.withX x)]
  rfl

theorem lifecycleTriggerCheck_ignoresX (v : Word32) : IgnoresX (lifecycleTriggerCheck v) := by
  intro x s
  rw [lifecycleTriggerCheck_eq, lifecycleTriggerCheck_eq, apply_ite (Result.withX x)]
  rfl

/-- A body that is one load and a pure end ignores the demultiplexer record. -/
theorem loadBody_ignoresX (reg : RegName) (f : Word32 → RspValue) (g : Word32 → Controller → Controller) :
    IgnoresX fun s => (load reg s).andThen fun v t => .done (f v) (t.updateC (g v)) :=
  (load_ignoresX reg).andThen fun v => done_updateC_ignoresX (f v) (g v)

theorem HasBody.ignoresX {i : Instr} {body : State → Result RspValue} (h : HasBody i body) : IgnoresX body := by
  cases h with
  | setMode | requestStopOnFlush => exact (rmw_ignoresX _ _).andThen fun _ => done_updateC_ignoresX _ _
  | enableCapture | disableCapture => exact (store_ignoresX _ _).andThen fun _ => done_updateC_ignoresX _ _
  | readOne =>
    exact (load_ignoresX .RRD).andThen fun v => (lifecycleReadOne_ignoresX (decodeRRD v)).andThen fun _ _ _ => rfl
  | isFull => exact loadBody_ignoresX .STS _ fun v => lifecycleIsFull (decodeStatus v).full
  | isReady => exact loadBody_ignoresX .STS _ fun v => lifecycleIsReady (decodeStatus v).ready
  | isEmpty | isTriggered | fillLevel | fifoSize => exact loadBody_ignoresX _ _ fun _ => lifecycleQuery
  | triggerManualFlush =>
    exact (load_ignoresX .FFCR).andThen fun v => (lifecycleTriggerCheck_ignoresX v).andThen fun _ =>
      (store_ignoresX .FFCR _).andThen fun _ => done_updateC_ignoresX _ _

theorem Result.respond_withX (x : Demux) (r : Result RspValue) : (r.withX x).respond = r.respond.withX x := by
  cases r <;> rfl

/-- The wrapper passes another demultiplexer record on (R130). -/
theorem runController_withX {body : State → Result RspValue} (h : IgnoresX body) (i : Instr) (x : Demux) (s : State) :
    runController i body (s.withX x) = (runController i body s).withX x := by
  rw [runController_eq, runController_eq, h x s, Result.respond_withX, apply_ite (State.withX x),
    apply_ite (State.withX x)]
  rfl

end Sys2Proof.Machine
end

section
/-! PROOFS. The obligations of spec/43_frame_demux.md. -/

namespace Sys2Proof.Claims

open Sys2Proof.Machine

/-- Settles O55: the parse of the written bytes goes over the described items, each of which parses to its meaning. -/
theorem frameRoundTrip : Obligations.FrameRoundTrip := by
  intro d t h
  rw [parseFrame_words d t h, foldl_parsePair_items, List.nil_append, parseLast_item]

/-- Settles O57, by induction over the frames: each is fed from the frame boundary the one before left (O55). -/
theorem streamRoundTrip : Obligations.StreamRoundTrip := by
  intro ds
  induction ds with
  | nil => exact fun s _ hs => ⟨rfl, by rw [← hs]; rfl⟩
  | cons d ds ih =>
    intro s h hs
    obtain ⟨hd, hds⟩ := List.forall_mem_cons.1 h
    obtain ⟨hout, hX⟩ := feedAll_frame (FrameDesc.words_length hd) hs
    rw [frameRoundTrip d s.X.tag hd] at hout hX
    obtain ⟨iout, iX⟩ := ih (feedAll d.words s).1 hds (by rw [hX])
    rw [hX] at iout iX
    rw [List.flatMap_cons, feedAll_append, streamMeaning]
    exact ⟨congrArg₂ (· ++ ·) hout iout, iX⟩

/-- Settles O24: the argument is the tag below bit 7; the effect is the command's definition. -/
theorem demuxInitSeedsTag : Obligations.DemuxInitSeedsTag := by
  refine fun t => ⟨fun data => ⟨decode_eq_legal_iff.2 ⟨rfl, rfl, rfl⟩, ?_⟩, fun _ => rfl⟩
  rw [demuxInit_bit7_word, decode_demuxInit, decodeDemuxInit_illegal]

/-- Settles O25, by what a fed word does to `X`. -/
theorem demuxFeedHoldsOrParses : Obligations.DemuxFeedHoldsOrParses := by
  refine fun w => ⟨decode_eq_legal_iff.2 ⟨rfl, rfl, rfl⟩, fun arg h => ?_, fun s => ⟨fun h => ?_, fun h => ?_⟩⟩
  · rw [decode_demuxFeed, decodePlain_illegal h]
  · rw [exec_demuxFeed, afterFeed, feedWord_holds w s.X h]; rfl
  · rw [exec_demuxFeed, afterFeed, feedWord_parses w s.X h]; rfl

/-- Settles O54: a demultiplexer command runs by its definition, a controller command's body ignores `X`. -/
theorem unitsDoNotInterfere : Obligations.UnitsDoNotInterfere := by
  refine ⟨fun i s t u c hu h h' => ?_, fun i s t u x hu h h' => ?_⟩
  · cases i with
    | demuxInit | demuxFeed | demuxStatus => cases h; cases h'; exact ⟨rfl, rfl, rfl⟩
    | _ => cases hu
  · obtain ⟨body, hb, he⟩ := exec_eq_runController hu
    cases (he s).symm.trans h
    cases (he (s.withX x)).symm.trans h'
    exact runController_withX hb.ignoresX i x s

/-- Settles O56, by the description read off the words. -/
theorem everyFrameIsDescribed : Obligations.EveryFrameIsDescribed :=
  fun w₀ w₁ w₂ w₃ => ⟨.ofWords [w₀, w₁, w₂, w₃], rfl, FrameDesc.ofWords_words w₀ w₁ w₂ w₃⟩

/-- Settles O58: of the eight even bytes none to all are data. -/
theorem frameOutputIsBounded : Obligations.FrameOutputIsBounded := by
  intro t w₀ w₁ w₂ w₃
  have hc : ([w₀, w₁, w₂, w₃].flatMap fun w => [w.getLsbD 0, w.getLsbD 16]).count false ≤ 8 := List.count_le_length
  rw [parseFrame_length]
  omega

/-- Settles O26, by the decoder's arm and the command's definition. -/
theorem demuxStatusReadsOut : Obligations.DemuxStatusReadsOut :=
  ⟨fun _ => decode_eq_legal_iff.2 ⟨rfl, rfl, rfl⟩,
    fun arg data h => (decode_demuxStatus arg data).trans (decodePlain_illegal h _), fun _ => rfl⟩

end Sys2Proof.Claims
end

section
/-! PROOFS. Who moves in a step (spec/00_scope.md R8), and what each line of a host script then does
(spec/44_block_and_sequencer.md R201, R204). -/

namespace Sys2Proof.Machine

theorem step_eq_hostStep {s : State} (hr : s.resetIn = false) (hp : s.port.pending = none) : step s = hostStep s := by
  simp [step, hr, hp]

theorem step_eq_runScript {s : State} (hr : s.resetIn = false) (hp : s.port.pending = none)
    (ha : s.host.awaiting = .idle) : step s = runScript s := by
  simp [step_eq_hostStep hr hp, hostStep, ha]

/-- A legal command that waits on the port runs (R264). -/
theorem step_eq_exec {s : State} {c : Command} {i : Instr} (hr : s.resetIn = false) (hp : s.port.pending = some c)
    (hd : decode c = .legal i) : step s = exec i s.acceptCommand := by
  simp [step, runCommand, hr, hp, hd]

/-- A well-formed command that the host has just issued runs (R32). -/
theorem step_issued {s : State} {i : Instr} (a : Await) (hr : s.resetIn = false) (hw : i.wellFormed = true) :
    step (s.issue (encode i) a) = exec i (s.issue (encode i) a).acceptCommand :=
  step_eq_exec hr rfl (Claims.decodeEncodeRoundTrip i hw)

theorem step_eq_runLine {s : State} {l : Line} (h : Claims.runsLine s l) : step s = runLine l s := by
  obtain ⟨hr, hp, ha, hst, hf, name, hl⟩ := h
  simp [step_eq_runScript hr hp ha, runScript, hst, hf, hl]

/-- The line a label names is the one the host finds (R201). -/
theorem findLabel_of_namesLine {script : List ScriptLine} {name : Label} {p : Nat}
    (h : Claims.namesLine script name p) : findLabel script name = some p := by
  induction script generalizing p with
  | nil => obtain ⟨⟨l, hl⟩, -⟩ := h; cases hl
  | cons l ls ih =>
    obtain ⟨⟨b, hb⟩, hfirst⟩ := h
    cases p with
    | zero => cases hb; exact if_pos rfl
    | succ p =>
      have hl : l.label ≠ some name := by
        obtain ⟨label, body⟩ := l
        rintro rfl
        exact hfirst 0 p.succ_pos body rfl
      rw [findLabel, if_neg hl, ih ⟨⟨b, hb⟩, fun q hq => hfirst (q + 1) (Nat.succ_lt_succ hq)⟩]
      rfl

theorem jumpTo_of_namesLine {s : State} {name : Label} {p : Nat} (h : Claims.namesLine s.host.script name p) :
    s.jumpTo name = .next { s with host := { s.host with pos := p } } := by
  rw [State.jumpTo, findLabel_of_namesLine h]

/-- The host evaluates a condition as R201's table says. -/
theorem condHolds_iff (h : HostState) (c : Cond) :
    condHolds c h.last h.nextExt = true ↔ Claims.lastMeets h c := by
  cases c with
  | isTrue | isFalse | isNone | ext => simp [condHolds, Claims.lastMeets]
  | isSome | isErr => simp only [condHolds, Claims.lastMeets]; split <;> simp_all

@[simp] theorem afterCond_script (h : HostState) (c : Cond) : (h.afterCond c).script = h.script := by
  unfold HostState.afterCond; split <;> rfl

@[simp] theorem afterCond_pos (h : HostState) (c : Cond) : (h.afterCond c).pos = h.pos := by
  unfold HostState.afterCond; split <;> rfl

theorem branch_of_lastMeets {s : State} {c : Cond} {name : Label} {p : Nat} (hc : Claims.lastMeets s.host c)
    (h : Claims.namesLine s.host.script name p) :
    s.branch c name = .next { s with host := { s.host.afterCond c with pos := p } } := by
  rw [State.branch, if_pos ((condHolds_iff _ _).2 hc)]
  exact jumpTo_of_namesLine (by simpa using h)

theorem branch_of_not_lastMeets {s : State} {c : Cond} (name : Label) (hc : ¬ Claims.lastMeets s.host c) :
    s.branch c name = .next { s with host := { s.host.afterCond c with pos := s.host.pos + 1 } } := by
  rw [State.branch, if_neg (mt (condHolds_iff _ _).1 hc), HostState.nextLine, afterCond_pos]

theorem pushLast_word {s : State} {w : Word32} (h : s.host.last = some (.ok (.optWord (some w)))) :
    s.pushLast = .next (s.pushWord w) := by
  rw [State.pushLast, h]

theorem pushFull_goOn {s : State} {b : List Word32} {p : Nat} (h : s.host.nextFull = .goOn b p) :
    s.pushFull = { s with host := { s.host.afterFull with buf := b.take s.params.bufferWords, pos := p } } := by
  rw [State.pushFull, h]

theorem pushFull_stop {s : State} (h : s.host.nextFull = .stop) :
    s.pushFull = { s with host := { s.host.afterFull with status := .ended } } := by
  rw [State.pushFull, h]

/-- A script that has stopped does nothing (R201). -/
theorem runScript_stopped {s : State} (h : s.host.status ≠ .running) : runScript s = .next s := by
  unfold runScript
  split
  · contradiction
  · contradiction
  · rfl
  · rfl

end Sys2Proof.Machine
end

section
/-! PROOFS. The run of `FEED B` (spec/44_block_and_sequencer.md R201): three steps for each word left. -/

namespace Sys2Proof.Machine

theorem run_succ {M : Host.Core} {s t : M.State} (n : Nat) (h : M.step s = .next t) : M.run (n + 1) s = M.run n t := by
  rw [Host.Core.run, h]

/-- What words output and what they leave in `X` depends on `X` alone (R180). -/
theorem feedAll_congr {s t : State} (ws : List Word32) (h : s.X = t.X) :
    (feedAll ws s).1.X = (feedAll ws t).1.X ∧ (feedAll ws s).2 = (feedAll ws t).2 := by
  induction ws generalizing s t with
  | nil => exact ⟨h, rfl⟩
  | cons w ws ih =>
    have hX : (afterFeed w s).X = (afterFeed w t).X := by simp [afterFeed, h]
    obtain ⟨iX, iout⟩ := ih hX
    rw [feedAll_cons, feedAll_cons, h]
    exact ⟨iX, congrArg ((feedWord w t.X).2 ++ ·) iout⟩

/-- It is the host's turn: no reset and no command comes first, and its script runs and awaits no response. -/
structure HostTurn (s : State) : Prop where
  resetIn : s.resetIn = false
  pending : s.port.pending = none
  awaiting : s.host.awaiting = .idle
  status : s.host.status = .running

/-- The state after `FEED B` fed the word `w` and recorded its pairs, with `ws` left to feed. -/
def afterFedWord (w : Word32) (ws : List Word32) (s : State) : State :=
  { s with
    X := (feedWord w s.X).1
    port := { pending := none, rsp := none }
    host := { s.host with feed := ws, pairs := s.host.pairs ++ (feedWord w s.X).2 } }

/-- The state after the line `FEED B`, with all of `B` left to feed. -/
def startedFeed (s : State) : State := { s with host := { s.host.nextLine with feed := s.host.buf } }

/-- The state after `FEED B` issued the DEMUX_FEED of `w`, with `ws` left to feed. -/
def issuedFeed (w : Word32) (ws : List Word32) (s : State) : State :=
  State.issue (encode (.demuxFeed w)) .feed { s with host := { s.host with feed := ws } }

theorem step_issuesFeed {s : State} {w : Word32} {ws : List Word32} (hs : HostTurn s) (hf : s.host.feed = w :: ws) :
    step s = .next (issuedFeed w ws s) := by
  rw [step_eq_runScript hs.resetIn hs.pending hs.awaiting, runScript, hs.status, hf]
  rfl

theorem step_executesFeed {s : State} (w : Word32) (ws : List Word32) (hs : HostTurn s) :
    step (issuedFeed w ws s) = .next (afterFeed w (issuedFeed w ws s).acceptCommand) :=
  (step_issued (s := { s with host := { s.host with feed := ws } }) .feed hs.resetIn rfl).trans (exec_demuxFeed w _)

theorem step_recordsFeed {s : State} (w : Word32) (ws : List Word32) (hs : HostTurn s) :
    step (afterFeed w (issuedFeed w ws s).acceptCommand) = .next (afterFedWord w ws s) := by
  rw [step_eq_hostStep (s := afterFeed w (issuedFeed w ws s).acceptCommand) hs.resetIn rfl]
  simp only [afterFedWord, hs.awaiting]
  rfl

/-- `FEED B` takes three steps for a word: the host issues its DEMUX_FEED, the block executes it, and the host records
its pairs. -/
theorem run_fedWord {s : State} {w : Word32} {ws : List Word32} (n : Nat) (hs : HostTurn s)
    (hf : s.host.feed = w :: ws) :
    Host.Core.run Sys2Proof.core (n + 3) s = Host.Core.run Sys2Proof.core n (afterFedWord w ws s) :=
  calc Host.Core.run Sys2Proof.core (n + 3) s
    _ = Host.Core.run Sys2Proof.core (n + 2) (issuedFeed w ws s) := run_succ _ (step_issuesFeed hs hf)
    _ = Host.Core.run Sys2Proof.core (n + 1) (afterFeed w (issuedFeed w ws s).acceptCommand) :=
      run_succ _ (step_executesFeed w ws hs)
    _ = Host.Core.run Sys2Proof.core n (afterFedWord w ws s) := run_succ _ (step_recordsFeed w ws hs)

theorem HostTurn.afterFedWord {s : State} (hs : HostTurn s) (w : Word32) (ws : List Word32) :
    HostTurn (afterFedWord w ws s) :=
  ⟨hs.resetIn, rfl, hs.awaiting, hs.status⟩

/-- The words that `FEED B` has left go through the demultiplexer in order, and their pairs to `P`. -/
theorem run_feed {s : State} (ws : List Word32) (hs : HostTurn s) (hf : s.host.feed = ws) :
    ∃ t : State, Host.Core.run Sys2Proof.core (3 * ws.length) s = .next t ∧
      t.X = (feedAll ws s).1.X ∧ t.C = s.C ∧ t.bus = s.bus ∧ t.dev = s.dev ∧
      t.host = { s.host with feed := [], pairs := s.host.pairs ++ (feedAll ws s).2 } := by
  induction ws generalizing s with
  | nil => exact ⟨s, rfl, rfl, rfl, rfl, rfl, by rw [feedAll_nil, List.append_nil, ← hf]⟩
  | cons w ws ih =>
    obtain ⟨t, hrun, hX, hC, hbus, hdev, hhost⟩ := ih (hs.afterFedWord w ws) rfl
    obtain ⟨cX, cout⟩ := feedAll_congr (s := afterFedWord w ws s) (t := afterFeed w s) ws rfl
    refine ⟨t, (run_fedWord _ hs hf).trans hrun, hX.trans cX, hC, hbus, hdev, ?_⟩
    rw [hhost, cout, feedAll_cons, ← List.append_assoc]
    rfl

end Sys2Proof.Machine
end

section
/-! PROOFS. GET_STATE's word (spec/30_encoding.md R91), what every command does to the port and the reset input
(spec/10_state.md R32, R33), and how the host records the response to a command line
(spec/44_block_and_sequencer.md R201). -/

namespace Sys2Proof.Machine

/-- With GET_STATE's opcode the argument decides (R91). -/
theorem decode_getState (arg : BitVec 8) (data : Word32) :
    decode ⟨0x30#8 ++ arg, data⟩ = decodePlain arg .getState := by
  simp [decode, CmdWord.op_append, CmdWord.arg_append]

/-- No command changes the reset input. -/
theorem exec_resetIn {i : Instr} {s t : State} (h : exec i s = .next t) : t.resetIn = s.resetIn := by
  by_cases hu : i.execUnit = .controller
  · exact (exec_controllerFrame hu h).resetIn
  · obtain ⟨x, r, rfl, -⟩ := exec_otherUnit hu h; rfl

/-- No command changes what waits on the port. -/
theorem exec_pending {i : Instr} {s t : State} (h : exec i s = .next t) : t.port.pending = s.port.pending := by
  by_cases hu : i.execUnit = .controller
  · exact (exec_controllerFrame hu h).pending
  · obtain ⟨x, r, rfl, -⟩ := exec_otherUnit hu h; rfl

/-- Every command responds (R33). -/
theorem exec_responds {i : Instr} {s t : State} (h : exec i s = .next t) : ∃ r, t.port.rsp = some r := by
  by_cases hu : i.execUnit = .controller
  · obtain ⟨body, hb, -⟩ := exec_eq_runController hu
    rcases hb.exec_cases h with ⟨e, -, rfl⟩ | ⟨-, rfl⟩
    · exact ⟨_, rfl⟩
    · cases body s <;> exact ⟨_, rfl⟩
  · obtain ⟨x, r, rfl, -⟩ := exec_otherUnit hu h; exact ⟨_, rfl⟩

@[simp] theorem recordResponse_last (h : HostState) (r : Response) : (h.recordResponse r).last = some r := by
  unfold HostState.recordResponse
  split
  · rfl
  · split <;> rfl

@[simp] theorem recordResponse_pos (h : HostState) (r : Response) : (h.recordResponse r).pos = h.pos + 1 := by
  unfold HostState.recordResponse
  split
  · rfl
  · split <;> rfl

/-- A running script stops at a response exactly when it is an error that the next line does not handle (R201). -/
theorem recordResponse_aborted_iff {h : HostState} (hs : h.status = .running) (r : Response) :
    (∃ e, (h.recordResponse r).status = .aborted e) ↔
      (∃ e, r = .err e) ∧ handlesErr h.script (h.pos + 1) = false := by
  cases r with
  | ok v => simp [HostState.recordResponse, HostState.nextLine, hs]
  | err e =>
    cases he : handlesErr h.script (h.pos + 1) <;> simp [HostState.recordResponse, HostState.nextLine, hs, he]

end Sys2Proof.Machine
end

section
/-! PROOFS. The obligations of spec/44_block_and_sequencer.md. -/

namespace Sys2Proof.Claims

open Sys2Proof.Machine

/-- Settles O59: each line by its equation, FEED B by induction over the words of `B`. -/
theorem hostLinesActOnHostRecord : Obligations.HostLinesActOnHostRecord := by
  refine ⟨fun s t hr hp h => ?hostMoves, fun s w hl hw hb => ?pushRoom, fun s w hl hw hb => ⟨fun b p hc => ?pushGoOn,
    fun hc => ?pushStop⟩, fun s name p hl hn => ?goto, fun s c name p hl hc hn => ?ifHolds,
    fun s c name hl hc => ?ifFails, fun s hl => ?endScript, fun s hr hp ha hst => ?stopped, fun s hl => ?feedB⟩
  case hostMoves =>
    obtain ⟨p, r, host, rfl, -⟩ := hostStep_hostMoved ((step_eq_hostStep hr hp).symm.trans h)
    exact ⟨rfl, rfl, rfl, rfl, rfl, rfl⟩
  case pushRoom => rw [step_eq_runLine hl, runLine, pushLast_word hw, pushWord_room hb]; rfl
  case pushGoOn => rw [step_eq_runLine hl, runLine, pushLast_word hw, pushWord_full hb, pushFull_goOn hc]; rfl
  case pushStop => rw [step_eq_runLine hl, runLine, pushLast_word hw, pushWord_full hb, pushFull_stop hc]
  case goto => rw [step_eq_runLine hl, runLine, jumpTo_of_namesLine hn]
  case ifHolds => rw [step_eq_runLine hl, runLine, branch_of_lastMeets hc hn]
  case ifFails => rw [step_eq_runLine hl, runLine, branch_of_not_lastMeets name hc]
  case endScript => rw [step_eq_runLine hl, runLine]
  case stopped => rw [step_eq_runScript hr hp ha, runScript_stopped hst]
  case feedB =>
    have hline : step s = .next (startedFeed s) := step_eq_runLine hl
    obtain ⟨hr, hp, ha, hst, hf, -⟩ := hl
    obtain ⟨t, hrun, hX, hC, hbus, hdev, hhost⟩ := run_feed (s := startedFeed s) s.host.buf ⟨hr, hp, ha, hst⟩ rfl
    obtain ⟨cX, cout⟩ := feedAll_congr (s := startedFeed s) (t := s) s.host.buf rfl
    refine ⟨t, ?_, hX.trans cX, hC, hbus, hdev, ?_⟩
    · rw [Nat.add_comm]; exact (run_succ _ hline).trans hrun
    · rw [hhost, cout, ← hf]; rfl

/-- Settles O60: the host issues the command, the block executes it and responds, and the host records the response. -/
theorem commandLineRoundTrip : Obligations.CommandLineRoundTrip := by
  intro s t u i l hr hp ha hst hf hl hw h1 h2
  have hissue : step s = .next (s.issue (encode i) .command) := step_eq_runLine ⟨hr, hp, ha, hst, hf, l, hl⟩
  cases hissue.symm.trans h1
  have hexec : exec i (s.issue (encode i) .command).acceptCommand = .next u :=
    (step_issued .command hr hw).symm.trans h2
  obtain ⟨r, hrsp⟩ := exec_responds hexec
  have hhost : u.host = { s.host with awaiting := .command } := exec_host hexec
  have hrecord : step u = .next (u.takeResponse (u.host.recordResponse r)) := by
    rw [step_eq_hostStep ((exec_resetIn hexec).trans hr) (exec_pending hexec), hostStep, hrsp, hhost]
  refine ⟨rfl, rfl, rfl, hexec, _, r, hrsp, hrecord, recordResponse_last _ _, rfl, ?_, rfl, rfl, ?_⟩
  · rw [takeResponse_host, recordResponse_pos, hhost]
  · rw [takeResponse_host, hhost]
    exact recordResponse_aborted_iff hst r

/-- Settles O27, by the decoder's arm and the command's definition. -/
theorem getStateReadsOut : Obligations.GetStateReadsOut :=
  ⟨fun _ => decode_eq_legal_iff.2 ⟨rfl, rfl, rfl⟩,
    fun arg data h => (decode_getState arg data).trans (decodePlain_illegal h _), fun _ => rfl⟩

end Sys2Proof.Claims
end

section
/-! PROOFS. How a command comes to answer an error (spec/60_exceptions.md R220 to R225): the demultiplexer and the block
never do, and a controller command is refused without effect or raises the error from its body. -/

namespace Sys2Proof.Machine

/-- A command of another unit than the controller answers `Ok` (R181 to R183, R200). -/
theorem exec_otherUnit_ok {i : Instr} {s t : State} (hu : i.execUnit ≠ .controller) (h : exec i s = .next t) :
    ∃ v, t.port.rsp = some (.ok v) := by
  cases i with
  | demuxInit | demuxFeed | demuxStatus | getState => cases h; exact ⟨_, rfl⟩
  | _ => exact absurd rfl hu

/-- Only controller commands answer errors. -/
theorem controller_of_err {i : Instr} {s t : State} {e : CmdError} (h : exec i s = .next t)
    (hr : t.port.rsp = some (.err e)) : i.execUnit = .controller := by
  by_contra hu
  obtain ⟨v, hv⟩ := exec_otherUnit_ok hu h
  cases hv.symm.trans hr

/-- The two ways to an error: the refusal of an illegal command or of one that meets a latched fault, or a body that
raised it (R221 to R225, R227). -/
theorem exec_err_cases {i : Instr} {s t : State} {e : CmdError} (h : exec i s = .next t)
    (hr : t.port.rsp = some (.err e)) :
    ((e = .illegalCommand (encode i).cmd ∨ e = .sessionAborted s.C.fault) ∧ t = s.respond (.err e)) ∨
    ∃ u, BodyEnds i s (.raised e u) ∧ t = u.respond (.err e) := by
  obtain ⟨body, hb, -⟩ := exec_eq_runController (controller_of_err h hr)
  rcases hb.exec_cases h with ⟨e', he, rfl⟩ | ⟨-, rfl⟩
  · cases hr; exact .inl ⟨he, rfl⟩
  · have ends := hb.ends s
    cases hd : body s with
    | done v u => rw [hd] at hr; cases hr
    | raised e' u => rw [hd] at hr ends; cases hr; exact .inr ⟨u, ends, rfl⟩

end Sys2Proof.Machine
end

section
/-! PROOFS. The obligations of spec/60_exceptions.md. -/

namespace Sys2Proof.Claims

open Sys2Proof.Machine

/-- Settles O28: a controller command by the wrapper's refusal, the other units' by their answer `Ok`. -/
theorem latchedFaultRefusesControllerOnly : Obligations.LatchedFaultRefusesControllerOnly := by
  refine ⟨fun i hu hw => ?refused, fun i s hu => ?answersOk, fun s t h => ?showsFault⟩
  case refused =>
    obtain ⟨body, hb, -⟩ := exec_eq_runController hu
    exact refusedWhenLatched hb hw
  case answersOk =>
    obtain ⟨v, hv⟩ := exec_otherUnit_ok hu (exec_eq_next i s)
    exact ⟨_, v, exec_eq_next i s, hv⟩
  case showsFault => cases h; exact ⟨_, rfl, rfl⟩

/-- Settles O29: of the moves of a step only reset, which the premise shuts out, changes `C` with a fault latched. -/
theorem latchedFaultStays : Obligations.LatchedFaultStays := by
  intro s t hf hr h
  rcases step_cases h with ⟨hr', -⟩ | ⟨-, c, i, -, -, he⟩ | ⟨-, c, e, -, -, rfl⟩ | ⟨-, -, hh⟩
  · rw [hr] at hr'; cases hr'
  · exact (exec_latched (s := s.acceptCommand) he hf).1
  · rfl
  · exact hostStep_C hh

/-- Settles O31: a refusal changes the response alone, and a body that raises ends as its table says. -/
theorem errorsArePrecise : Obligations.ErrorsArePrecise := by
  intro i s t e h hr
  refine ⟨(exec_controllerFrame (controller_of_err h hr) h).X, ?_⟩
  rcases exec_err_cases h hr with ⟨rfl | rfl, rfl⟩ | ⟨u, ends, rfl⟩
  · exact ⟨rfl, rfl, rfl⟩
  · exact ⟨rfl, rfl, rfl, rfl⟩
  · refine ⟨ends.phase_of_raised, ?_⟩
    cases ends with
    | transport hC | sofNotObserved _ hC | dataAfterDrained _ _ hC | drainLimit _ _ _ hC => exact hC

end Sys2Proof.Claims
end

section
/-! PROOFS. The obligations of spec/70_reset_and_hazards.md. -/

namespace Sys2Proof.Machine

/-- The reset input comes before a waiting command and before the host (R250). -/
theorem step_eq_blockReset {s : State} (hr : s.resetIn = true) : step s = .next s.blockReset := by
  simp [step, hr]

end Sys2Proof.Machine

namespace Sys2Proof.Claims

open Sys2Proof.Machine

/-- Settles O7: with no reset asserted a legal command on the port is the one that moves (R264), and accepting it takes
it off the port with the old response. -/
theorem stepRunsDecodedCommand : Obligations.StepRunsDecodedCommand :=
  fun _ _ _ hr hp hd => step_eq_exec hr hp hd

/-- Settles O32: the step is the reset event, and `blockReset` writes the values of R34's table. -/
theorem resetSetsBlockOnly : Obligations.ResetSetsBlockOnly :=
  fun _ hr => step_eq_blockReset hr

end Sys2Proof.Claims
end
